-- ==== Sys2Proof/Machine/Parameters.lean ====
section
/-! DEFINITION. The parameters of 00_scope R5 and R6, each a named constant with the spec's value, read wherever the model needs it
(decision D23: the literals are unaudited, so each stands here once; log entry 16). Those of R5 are the fields of one configuration
record. Of R6 the reset values stand here; its widths are those of the word types of Word.lean. What R7 leaves open is in Config.lean. -/

namespace Sys2Proof.Machine

/-- `SEG_POLARITY` (R5): which level of a bit lights its segment or point. -/
inductive Polarity where
  | activeLow
  | activeHigh
deriving DecidableEq, Repr

/-- The fixed part of the configuration (R5): the parameters whose value the document gives. `T_TICK`, used by no rule of the model,
is left out with time (R4, log entry 19). -/
structure FixedConfig where
  /-- `NDIGITS`: digit positions of the display. -/
  ndigits : Nat
  /-- `BYTE_BITS`: bits sent by one `shiftOut`. -/
  byteBits : Nat
  /-- `FRAME_BYTES`: `segments`, then `digitSelect`. -/
  frameBytes : Nat
  /-- `DSEL[p]`: the one-hot select mask of position p, position 0 the leftmost. -/
  dsel : Vector (BitVec byteBits) ndigits
  /-- `DIGIT_MOD`: `render` keeps number mod this. -/
  digitMod : Nat
  /-- `SEC_MOD`: seconds wrap. -/
  secMod : Nat
  /-- `MIN_MOD`: minutes wrap. -/
  minMod : Nat
  /-- `MMSS_SCALE`: the packed value is minutes × this + seconds. -/
  mmssScale : Nat
  /-- `DP_POS_SET`: the legal values of `decimalPosition`. -/
  dpPosSet : List Int
  /-- `LUT_SIZE`: entries of the Segment Pattern Table. -/
  lutSize : Nat
  /-- `SEG_POLARITY`. -/
  segPolarity : Polarity
deriving DecidableEq, Repr

/-- The document's values (R5). -/
abbrev fixedConfig : FixedConfig where
  ndigits := 4
  byteBits := 8
  frameBytes := 2
  dsel := #v[0x01#8, 0x02#8, 0x04#8, 0x08#8]
  digitMod := 10000
  secMod := 60
  minMod := 100
  mmssScale := 100
  dpPosSet := [-1, 0, 1, 2, 3]
  lutSize := 10
  segPolarity := .activeLow

/-- `NDIGITS` (R5). -/
abbrev ndigits : Nat := fixedConfig.ndigits

/-- `BYTE_BITS` (R5). -/
abbrev byteBits : Nat := fixedConfig.byteBits

/-- `FRAME_BYTES` (R5). -/
abbrev frameBytes : Nat := fixedConfig.frameBytes

/-- `DSEL[p]` (R5, R43, R58). -/
def dsel (p : Fin ndigits) : BitVec byteBits := fixedConfig.dsel.get p

/-- `DIGIT_MOD` (R5). -/
def digitMod : Nat := fixedConfig.digitMod

/-- `SEC_MOD` (R5). -/
abbrev secMod : Nat := fixedConfig.secMod

/-- `MIN_MOD` (R5). -/
abbrev minMod : Nat := fixedConfig.minMod

/-- `MMSS_SCALE` (R5). -/
def mmssScale : Nat := fixedConfig.mmssScale

/-- `DP_POS_SET` (R5). -/
def dpPosSet : List Int := fixedConfig.dpPosSet

/-- `LUT_SIZE` (R5). -/
abbrev lutSize : Nat := fixedConfig.lutSize

/-- The level of a bit that lights its segment or point, by `SEG_POLARITY` (R5, R55). -/
def litLevel : Bool :=
  match fixedConfig.segPolarity with
  | .activeLow => false
  | .activeHigh => true

/-- `SEC_RESET` (R6). -/
def secReset : Fin secMod := 0

/-- `MIN_RESET` (R6). -/
def minReset : Fin minMod := 0

/-- `LATCH_RESET` (R6). -/
def latchReset : Bool := true

/-- `SCLK_RESET` (R6). -/
def sclkReset : Bool := false

/-- `SDATA_RESET` (R6). -/
def sdataReset : Bool := false

/-- The display positions, leftmost first (R84). -/
def positions : List (Fin ndigits) := List.finRange ndigits

/-- The bit numbers of a byte, most significant first (R36). -/
def msbFirst : List Nat := (List.range byteBits).reverse

end Sys2Proof.Machine
end

