-- ==== Sys2Proof/Word.lean ====
section
/-! DEFINITION. The widths of SEG7MUX's words (00_scope R6, 30_encoding R49, R55, R66), as bit vectors. -/

namespace Sys2Proof

/-- A byte on the wire: one `SHIFTOUT` operand, a segment pattern or a select mask (R40). -/
abbrev Byte := BitVec Machine.byteBits

/-- A Shift-Register Frame as one word: `segments` in bits 15..8, `digitSelect` in bits 7..0 (R55). Also SR and OUT (R27, R28): `SR_W` = 16 bits (R6). -/
abbrev Frame := BitVec 16

/-- A command word CW (R49): `CW_W` = 24 bits. -/
abbrev CommandWord := BitVec 24

/-- The `RDCLK` response RSP (R66): 27 bits, `MIN_W` = 7, `SEC_W` = 6 and `MMSS_W` = 14 (R6). -/
abbrev ResponseWord := BitVec 27

/-- The `number` operand of `RENDER`: `NUM_W` = 16 bits, unsigned (R6, R52). -/
abbrev Number := BitVec 16

/-- The word {`segments`, `digitSelect`} (R37, R55). -/
def frameWord (segments digitSelect : Byte) : Frame := segments ++ digitSelect

/-- W[15:8] of a frame word (R55). -/
def segmentsOf (w : Frame) : Byte := w.extractLsb' 8 8

/-- W[7:0] of a frame word (R55). -/
def digitSelectOf (w : Frame) : Byte := w.extractLsb' 0 8

end Sys2Proof
end

