-- ==== Sys2Proof/Config.lean ====
section
/-! DEFINITION. What an implementation fixes and the source leaves open (00_scope R7, decision D13), as a record of plain data,
and the free values: constants with no body, of which nothing can be proved. The parameters whose value the spec gives (R5, R6) are
in Machine/Parameters.lean, which this record stands beside. -/

namespace Sys2Proof

/-- The seven segments of one digit (R59, R82): a top, b upper right, c lower right, d bottom, e lower left, f upper left, g middle. -/
inductive Seg where
  | a | b | c | d | e | f | g
deriving DecidableEq, Repr

/-- `SEG_BIT[a..g]` (R7): the bit of the segment byte that drives each segment. -/
structure SegBits where
  a : Fin Machine.byteBits
  b : Fin Machine.byteBits
  c : Fin Machine.byteBits
  d : Fin Machine.byteBits
  e : Fin Machine.byteBits
  f : Fin Machine.byteBits
  g : Fin Machine.byteBits
deriving DecidableEq, Repr

/-- The bit assigned to a segment. -/
def SegBits.bitOf (t : SegBits) : Seg → Fin Machine.byteBits
  | .a => t.a | .b => t.b | .c => t.c | .d => t.d | .e => t.e | .f => t.f | .g => t.g

/-- The configuration fields of R7 and R81: the Segment Pattern Table, the decimal-point bit, the segment-to-bit assignment. -/
structure Config where
  /-- `SEG_LUT[0..9]` (R25, R33, R81): one pattern for each digit. -/
  segLut : Vector Byte Machine.lutSize
  /-- `DP_MASK` (R83): the decimal-point bit. -/
  dpMask : Byte
  /-- `SEG_BIT` (R7): read only by the display function (R88). -/
  segBit : SegBits
deriving DecidableEq, Repr

/-- FREE VALUE (log entry 3). What SR holds when the block leaves reset: "SR and OUT start as arbitrary 16-bit values under no law" (R29). -/
opaque Config.srAtReset : Frame

/-- FREE VALUE (log entry 3). What OUT holds when the block leaves reset (R29, R129). -/
opaque Config.outAtReset : Frame

/-- FREE VALUE (log entry 5). `SIMUL_ORDER` (R7, R115): at the n-th coincidence of a tick and a command, whether the tick is taken first (n counts
the open choices of the run, log entries 5 and 7). -/
opaque Config.tickFirst : Nat → Bool

/-- FREE VALUE (log entry 7). What OUT takes where RST arrives in the middle of a frame: "treats OUT as `any value` after such a reset"
(93 U19), for the n-th open choice of the run and the half-shifted SR, which is the value R127 names. -/
opaque Config.outAfterReset : Nat → Frame → Frame

end Sys2Proof
end

