-- ==== Sys2Proof/Machine/Operands.lean ====
section
/-! DEFINITION. Every operand form of SEG7MUX (30_encoding R56 to R59, 41 R78 to R84): pure functions of the operands and of the
configuration. -/

namespace Sys2Proof.Machine

/-- `decimalPosition` = sext(`dpf`), a 3-bit two's complement number (R57). -/
def decimalPosition (dpf : BitVec 3) : Int := dpf.toInt

/-- `DP_POS_SET` (R5): dp is one of its values (the check `DpInDomain` of R61). -/
def dpInDomain (dpf : BitVec 3) : Bool :=
  dpPosSet.contains (decimalPosition dpf)

/-- The select byte is one of the four masks (the check `FrameOneHot` of R61). -/
def frameOneHot (d : Byte) : Bool :=
  positions.any fun p => d == dsel p

/-- dig(n, p) = (n div 10^(3-p)) mod 10 (R56, R78). -/
def digit (n : Number) (p : Fin ndigits) : Fin 10 :=
  ⟨n.toNat / 10 ^ (ndigits - 1 - p.val) % 10, Nat.mod_lt _ (by decide)⟩

/-- What `render` keeps of its number: number mod `DIGIT_MOD` (R5, R79). -/
def keptNumber (n : Number) : Number := BitVec.ofNat 16 (n.toNat % digitMod)

/-- `LutRead(d)` (R80). -/
def lutRead (c : Config) (d : Fin lutSize) : Byte := c.segLut.get d

/-- Whether the point is lit at position p: `showDecimal` and this position equals `decimalPosition` (R83). -/
def pointAt (sd : Bool) (dpf : BitVec 3) (p : Fin ndigits) : Bool :=
  sd && decide (decimalPosition dpf = (p.val : Int))

/-- The decimal-point bit driven to the level v (R83). -/
def drivePoint (c : Config) (v : Bool) (seg : Byte) : Byte := if v then seg ||| c.dpMask else seg &&& ~~~c.dpMask

/-- The point lit: active-low, its bit cleared (R83). -/
def litPoint (c : Config) (seg : Byte) : Byte := drivePoint c litLevel seg

/-- The point dark (R88). -/
def darkPoint (c : Config) (seg : Byte) : Byte := drivePoint c (!litLevel) seg

/-- Pat(n, sd, dp, p) (R84): the digit's pattern, its decimal-point bit taking the lit level where the point is lit. -/
def pattern (c : Config) (n : Number) (sd : Bool) (dpf : BitVec 3) (p : Fin ndigits) : Byte :=
  if pointAt sd dpf p then litPoint c (lutRead c (digit n p)) else lutRead c (digit n p)

/-- The frame of position p as one word, {Pat, DSEL[p]} (R84). -/
def renderFrame (c : Config) (n : Number) (sd : Bool) (dpf : BitVec 3) (p : Fin ndigits) : Frame :=
  frameWord (pattern c n sd dpf p) (dsel p)

/-- The packed value minutes × 100 + seconds (R94). -/
def packMmss (min sec : Nat) : Nat := min * mmssScale + sec

/-- RSP: RMIN in bits 26..20, RSEC in bits 19..14, RMMSS in bits 13..0 (R66). -/
def responseWord (min sec : Nat) : ResponseWord :=
  BitVec.ofNat 7 min ++ BitVec.ofNat 6 sec ++ BitVec.ofNat 14 (packMmss min sec)

end Sys2Proof.Machine
end

