-- ==== Sys2Proof/Syntax.lean ====
section
/-! DEFINITION. The six operations of SEG7MUX (00_scope R11; 30_encoding R50 to R54, R60; spec/opcode_table.json), and the words that
arrive on the block's two input ports. -/

namespace Sys2Proof

/-- One constructor per row of spec/opcode_table.json. Operands are the fields of the word as they stand (R50 to R53); whether they
are well formed is `Instr.check` (R61). -/
inductive Instr where
  /-- `SHIFTOUT b` (R50, R72). -/
  | shiftout (b : Byte)
  /-- `WRITEFRAME s, d` (R51, R74). -/
  | writeframe (s d : Byte)
  /-- `RENDER n, sd, dp` (R52, R86); `dpf` is the 3-bit two's complement field of dp (R57). -/
  | render (n : Number) (sd : Bool) (dpf : BitVec 3)
  /-- `CLKRST` (R53, R92). -/
  | clkrst
  /-- `RDCLK` (R53, R94). -/
  | rdclk
  /-- `TICK`, an event on the line TICK_IN and not a command word (R54, R90). -/
  | tick
deriving DecidableEq, Repr

/-- What an input port can carry: a word on CMD[23:0] (R49), or the level of TICK_IN (R54). -/
inductive PortWord where
  | command (w : CommandWord)
  | tickIn (v : BitVec 1)
deriving DecidableEq, Repr

end Sys2Proof
end

