-- ==== Sys2Proof/WellFormed.lean ====
section
/-! DEFINITION. The operand checks of 30_encoding R61 on an instruction: `DpInDomain`, then `FrameOneHot` (the order of 60 R111). The
checks `OpcodeKnown` and `ZeroBits` are on words (Decode.lean), `Idle` is on the state (Machine/Ops.lean). -/

namespace Sys2Proof

/-- A named check of an instruction's operands (R61). -/
inductive OperandCheck where
  | dpInDomain
  | frameOneHot
deriving DecidableEq, Repr

/-- The first operand check that fails, if any (R61, R111). Every other operand value is legal. -/
def Instr.check : Instr → Option OperandCheck
  | .shiftout _ => none
  | .writeframe _ d => if Machine.frameOneHot d then none else some .frameOneHot
  | .render _ _ dpf => if Machine.dpInDomain dpf then none else some .dpInDomain
  | .clkrst => none
  | .rdclk => none
  | .tick => none

/-- The instruction passes every operand check (R61). -/
def Instr.wellFormed (i : Instr) : Bool := i.check == none

end Sys2Proof
end

