-- ==== Sys2Proof/Decode.lean ====
section
/-! DEFINITION. Decoding a word on the block's input ports, total, refusing by name (30_encoding R49 to R54, R60 to R62), and the
encoder written from the same tables. A word that matches a row gives that row's instruction with its operand fields as they stand;
the operand checks of R61 are `Instr.check` (DESIGN CHOICE, log entry 10). -/

namespace Sys2Proof

/-- The checks of R61 on a command word, before its operands are looked at. -/
inductive WordCheck where
  /-- A reserved opcode: 0x0 or 0x6 to 0xF (R60 to R62). -/
  | opcodeKnown
  /-- A field that must be 0 is not (R61, R62). -/
  | zeroBits
deriving DecidableEq, Repr

/-- Why a port word gives no instruction. -/
inductive DecodeError where
  /-- A command word that fails a check. -/
  | word (r : WordCheck)
  /-- TICK_IN = 0: no event on the tick line (R54). -/
  | noEvent
deriving DecidableEq, Repr

/-- The field `op` = CW[23:20] (R49). -/
def opcodeOf (w : CommandWord) : BitVec 4 := w.extractLsb' 20 4

/-- The opcode map of R60 over the formats B, F, R, N (R50 to R53). -/
def decodeCommand (w : CommandWord) : Except WordCheck Instr :=
  if opcodeOf w = 0x1#4 then
    if w.extractLsb' 8 12 = 0#12 then .ok (.shiftout (w.extractLsb' 0 8)) else .error .zeroBits
  else if opcodeOf w = 0x2#4 then
    if w.extractLsb' 16 4 = 0#4 then .ok (.writeframe (w.extractLsb' 8 8) (w.extractLsb' 0 8))
    else .error .zeroBits
  else if opcodeOf w = 0x3#4 then
    .ok (.render (w.extractLsb' 0 16) (w.getLsbD 19) (w.extractLsb' 16 3))
  else if opcodeOf w = 0x4#4 then
    if w.extractLsb' 0 20 = 0#20 then .ok .clkrst else .error .zeroBits
  else if opcodeOf w = 0x5#4 then
    if w.extractLsb' 0 20 = 0#20 then .ok .rdclk else .error .zeroBits
  else .error .opcodeKnown

/-- Decoding either port: a command word, or the tick line, where 1 is one `TICK` event (R54). -/
def decode : PortWord → Except DecodeError Instr
  | .command w => (decodeCommand w).mapError .word
  | .tickIn v => if v = 1#1 then .ok .tick else .error .noEvent

/-- The word of an instruction, from the tables of R50 to R54. -/
def encode : Instr → PortWord
  | .shiftout b => .command (0x1#4 ++ 0#12 ++ b)
  | .writeframe s d => .command (0x2#4 ++ 0#4 ++ s ++ d)
  | .render n sd dpf => .command (0x3#4 ++ BitVec.ofBool sd ++ dpf ++ n)
  | .clkrst => .command (0x4#4 ++ 0#20)
  | .rdclk => .command (0x5#4 ++ 0#20)
  | .tick => .tickIn 1#1

/-- The port that a row of spec/opcode_table.json of `nbits` bits is about: a row of at most one byte is the tick line, whose bit is
bit 0 (R54), any other row is the command word (R49). The bits above `nbits` are 0 (log entry 12). -/
def portWordOf (nbits w : Nat) : PortWord :=
  if nbits ≤ 8 then .tickIn (BitVec.ofNat 1 w) else .command (BitVec.ofNat 24 (w % 2 ^ nbits))

/-- The instruction this decoder reads from a table row's bits. -/
def decodeTableWord (nbits w : Nat) : Option Instr :=
  match decode (portWordOf nbits w) with
  | .ok i => some i
  | .error _ => none

end Sys2Proof
end

