-- ==== Sys2Proof/Machine/Defaults.lean ====
section
/-! DEFINITION. The default of the configuration fields that the source leaves open (41 R82, R83). -/

namespace Sys2Proof.Machine

/-- PRESUMED (log entry 2): the default table, decimal-point bit and segment assignment of R82 and R83, which the spec itself marks as
general knowledge. -/
def defaultConfig : Config where
  segLut := #v[0xC0#8, 0xF9#8, 0xA4#8, 0xB0#8, 0x99#8, 0x92#8, 0x82#8, 0xF8#8, 0x80#8, 0x90#8]
  dpMask := 0x80#8
  segBit := { a := 0, b := 1, c := 2, d := 3, e := 4, f := 5, g := 6 }

end Sys2Proof.Machine
end

