-- ==== Sys2Proof/Machine/State.lean ====
section
/-! DEFINITION. The state of SEG7MUX (10_state R15 to R32, 70 R127, R128), as plain data, with the model's own fields that carry the
configuration, the inputs to come and the outputs of the run; the reasons a step can stop; and the state after reset. -/

namespace Sys2Proof.Machine

/-- The micro-operations of 40 R67: the unit of one sequencer step. -/
inductive MicroOp where
  | dat (v : Bool)
  | clk (v : Bool)
  | lat (v : Bool)
  | dwell (p : Fin ndigits)
deriving DecidableEq, Repr

/-- The three output lines (20_memory R34). -/
inductive Pin where
  | latch | sclk | sdata
deriving DecidableEq, Repr

/-- The events of a run's trace (00_scope R14). -/
inductive Event where
  | pin (p : Pin) (v : Bool)
  | latched (w : Frame)
  | dwell (p : Fin ndigits)
  | clockWrite (min : Fin minMod) (sec : Fin secMod)
  | clockRead (min : Fin minMod) (sec : Fin secMod)
deriving DecidableEq, Repr

/-- What the world does in one step (00_scope R13, 60 R115, 70 R127). -/
inductive Input where
  /-- The host presents the word for this step: CMD_VALID = 1 (R49). -/
  | command (w : CommandWord)
  /-- The tick source fires: TICK_IN = 1 (R54). -/
  | tick
  /-- A firing and a command at the same instant: either order may be taken (R115). -/
  | commandAndTick (w : CommandWord)
  /-- The sequencer is the agent that moves (R70). -/
  | sequencer
  /-- RST goes to 1 (R127). -/
  | assertReset
  /-- RST goes to 0 (R127). -/
  | releaseReset
deriving DecidableEq, Repr

/-- The state: the tuple of R15, the level of RST (R127), and five fields of the model's own (log entries 1 and 4 to 6). -/
@[ext]
structure State where
  /-- SEC (R16): 6 bits, held as a number below 60 (R31, R91; DESIGN CHOICE, log entry 11). -/
  sec : Fin secMod
  /-- MIN (R17): 7 bits, held as a number below 100 (R31, R91; DESIGN CHOICE, log entry 11). -/
  min : Fin minMod
  /-- LATCH (R18). -/
  latch : Bool
  /-- SCLK (R19). -/
  sclk : Bool
  /-- SDATA (R20). -/
  sdata : Bool
  /-- Q (R21): the micro-operations still to be performed. -/
  q : List MicroOp
  /-- SR (R27): the shift stage of the downstream register. -/
  sr : Frame
  /-- OUT (R28): its output stage. -/
  out : Frame
  /-- RST (R127): the level of the reset input. -/
  rst : Bool
  /-- MODEL'S OWN (log entry 1): the configuration, which no step changes (R25, R130). -/
  cfg : Config
  /-- MODEL'S OWN (log entry 4): the inputs to come, oldest first. -/
  inputs : List Input
  /-- MODEL'S OWN (log entries 5 and 7): how many open choices the run has taken, the order of a coincidence or OUT after RST in
  mid-frame. -/
  choices : Nat
  /-- MODEL'S OWN (log entry 6): the trace so far, oldest event first (R14). -/
  trace : List Event
  /-- MODEL'S OWN (log entry 6): the words presented on RSP so far, oldest first (R66). -/
  responses : List ResponseWord
deriving DecidableEq, Repr

/-- There is no fault: "The block raises no synchronous exception" (60 R109), and a model must not add one. Nobody raises one
(log entry 14). -/
inductive Fault where
deriving DecidableEq, Repr

/-- Why a step has no meaning: the refusals of 60 R111, tested in that order. Each is safe: the spec asks that a refusal mark the run
so that nothing can be claimed of it. -/
inductive Refusal where
  /-- Raised by an arm of `exec` that has no meaning; none is left. Safe. -/
  | notModelled (mnemonic : String)
  /-- Raised when a command is presented while BUSY = 1 (R61, R111 `Idle`). Safe. -/
  | idle
  /-- Raised by the command port on a reserved opcode (R61, R111 `OpcodeKnown`). Safe. -/
  | opcodeKnown
  /-- Raised by the command port on a must-be-0 field that is not 0 (R61, R111 `ZeroBits`). Safe. -/
  | zeroBits
  /-- Raised by `RENDER` with `dpf` = 0b100, 0b101 or 0b110 (R61, R111 `DpInDomain`). Safe. -/
  | dpInDomain
  /-- Raised by `WRITEFRAME` with a select byte that is none of the four masks (R61, R111 `FrameOneHot`). Safe. -/
  | frameOneHot
deriving DecidableEq, Repr

/-- The state after reset, RST released (R32, R128). SR and OUT hold values under no law (R29, log entry 3); the model's own fields
are empty, with the configuration of R82 and R83 (log entry 2). -/
def State.reset : State where
  sec := secReset
  min := minReset
  latch := latchReset
  sclk := sclkReset
  sdata := sdataReset
  q := []
  sr := Config.srAtReset
  out := Config.outAtReset
  rst := false
  cfg := defaultConfig
  inputs := []
  choices := 0
  trace := []
  responses := []

end Sys2Proof.Machine
end

