-- ==== Sys2Proof/Machine/Expansion.lean ====
section
/-! DEFINITION. The expansions of 40 R71: pure functions from operands to lists of micro-operations. -/

namespace Sys2Proof.Machine

/-- One bit on the wire: data, then clock high, then clock low (R67, R71). -/
def bitSeq (v : Bool) : List MicroOp := [.dat v, .clk true, .clk false]

/-- ShiftSeq(b) (R71): eight bits, most significant first; 24 entries. -/
def shiftSeq (b : Byte) : List MicroOp := msbFirst.flatMap fun i => bitSeq (b.getLsbD i)

/-- The bytes of a frame in the order they are sent: `segments`, then `digitSelect` (R5, R37). -/
def frameFields (s d : Byte) : Vector Byte frameBytes := #v[s, d]

/-- FrameSeq(s, d) (R71): the latch bracket around both bytes; 50 entries. -/
def frameSeq (s d : Byte) : List MicroOp := [.lat false] ++ (frameFields s d).toList.flatMap shiftSeq ++ [.lat true]

/-- RenderSeq(n, sd, dp) (R71, R86): four frames of the number that `render` keeps, leftmost first, a dwell after
each; 204 entries. -/
def renderSeq (c : Config) (n : Number) (sd : Bool) (dpf : BitVec 3) : List MicroOp :=
  positions.flatMap fun p => frameSeq (pattern c (keptNumber n) sd dpf p) (dsel p) ++ [.dwell p]

/-- Expand(c) (R71); the operations that complete in their own step queue nothing (R23). -/
def expand (c : Config) : Instr → List MicroOp
  | .shiftout b => shiftSeq b
  | .writeframe s d => frameSeq s d
  | .render n sd dpf => renderSeq c n sd dpf
  | .clkrst => []
  | .rdclk => []
  | .tick => []

end Sys2Proof.Machine
end

