-- ==== Sys2Proof/Machine/Flags.lean ====
section
/-! DEFINITION. The status the host sees. SEG7MUX has no flags (10_state R23); BUSY and CMD_READY are functions of Q and RST. -/

namespace Sys2Proof.Machine

/-- BUSY = 1 if Q is not empty (R23). -/
def State.busy (s : State) : Bool := !s.q.isEmpty

/-- CMD_READY = not BUSY (R23, R49), and 0 while RST is asserted (R127). -/
def State.cmdReady (s : State) : Bool := !s.busy && !s.rst

end Sys2Proof.Machine
end

