-- ==== Sys2Proof/Machine/Ops.lean ====
section
/-! DEFINITION. The named operations every meaning is written over: emitting events, writing pins with the downstream register's edge
rules, performing a micro-operation, writing the Clock State, offering a command, and RST. SEG7MUX takes no exception and returns
from none (60 R109, R117, R118), so there is no such operation here; the one asynchronous event, the tick, is `State.tickClock`. -/

namespace Sys2Proof.Machine

/-- `emit e` (R9): append an event to the trace. -/
def State.emit (e : Event) (s : State) : State := { s with trace := s.trace ++ [e] }

/-- SR <- {SR[14:0], SDATA} (R68). -/
def shiftIn (sr : Frame) (bit : Bool) : Frame := (sr.setWidth 15).concat bit

/-- SCLK takes the level v; at a rising edge the downstream register shifts (R68; PRESUMED by the spec, log entry 17). -/
def State.driveSclk (v : Bool) (s : State) : State :=
  if !s.sclk && v then { s with sclk := v, sr := shiftIn s.sr s.sdata } else { s with sclk := v }

/-- LATCH takes the level v; at a rising edge OUT <- SR and `Latched(SR)` is emitted (R69). -/
def State.driveLatch (v : Bool) (s : State) : State :=
  if !s.latch && v then ({ s with latch := v, out := s.sr } : State).emit (.latched s.sr)
  else { s with latch := v }

/-- `PinWrite(pin, v)` (R9, R67): emit the event, set the level, apply the edge rules. -/
def State.pinWrite (p : Pin) (v : Bool) (s : State) : State :=
  match p with
  | .latch => (s.emit (.pin .latch v)).driveLatch v
  | .sclk => (s.emit (.pin .sclk v)).driveSclk v
  | .sdata => { s.emit (.pin .sdata v) with sdata := v }

/-- The effect of a micro-operation (R67, R85). -/
def State.perform (m : MicroOp) (s : State) : State :=
  match m with
  | .dat v => s.pinWrite .sdata v
  | .clk v => s.pinWrite .sclk v
  | .lat v => s.pinWrite .latch v
  | .dwell p => s.emit (.dwell p)

/-- The sequencer step (R70): perform the head of Q and remove it. Not enabled, hence no change, when Q is empty or RST is asserted
(R13, R127). -/
def State.sequencerStep (s : State) : State :=
  if s.rst then s
  else match s.q with
    | [] => s
    | m :: rest => ({ s with q := rest } : State).perform m

/-- The micro-operations of a list performed in order, none skipped (R44, R70). -/
def State.drain (ops : List MicroOp) (s : State) : State := ops.foldl (fun t m => t.perform m) s

/-- Q <- a command's whole expansion (R21). -/
def State.load (ops : List MicroOp) (s : State) : State := { s with q := ops }

/-- Write SEC and MIN as a pair and emit `ClockWrite` with the values after the step (R14, R42). -/
def State.writeClock (min : Fin minMod) (sec : Fin secMod) (s : State) : State :=
  ({ s with sec := sec, min := min } : State).emit (.clockWrite min sec)

/-- (MIN + 1) mod 100 (R90). -/
def nextMinute (m : Fin minMod) : Fin minMod := ⟨(m.val + 1) % minMod, Nat.mod_lt _ (by decide)⟩

/-- The one atomic step of the tick (R90): t = SEC + 1; at 60 SEC <- 0 and MIN <- (MIN + 1) mod 100, else SEC <- t. -/
def State.tickClock (s : State) : State :=
  if h : s.sec.val + 1 = secMod then s.writeClock (nextMinute s.min) 0
  else s.writeClock s.min ⟨s.sec.val + 1, by have := s.sec.isLt; omega⟩

/-- Read SEC and MIN as a pair: present RSP and emit `ClockRead` (R66, R94). -/
def State.readClock (s : State) : State :=
  ({ s with responses := s.responses ++ [responseWord s.min.val s.sec.val] } : State).emit (.clockRead s.min s.sec)

/-- The refusal of a failed operand check (R111). -/
def refusalOfCheck : OperandCheck → Refusal
  | .dpInDomain => .dpInDomain
  | .frameOneHot => .frameOneHot

/-- A command offered on the port: not accepted and without effect while RST is asserted (R49, R127; DEDUCED, log
entry 8), refused as `Idle` while BUSY (R61, R111; DEDUCED, log entry 9), refused by the operand check that fails (R61, R111), else accepted, with its effect. -/
def offerCommand (i : Instr) (effect : State → State) (s : State) : Host.Outcome State Fault Refusal :=
  if s.rst then .next s
  else if s.busy then .refused .idle
  else match i.check with
    | some c => .refused (refusalOfCheck c)
    | none => .next (effect s)

/-- An event on TICK_IN: ignored while RST is asserted (R127; log entry 8), else taken whatever Q holds (R90). -/
def takeEvent (effect : State → State) (s : State) : Host.Outcome State Fault Refusal :=
  if s.rst then .next s else .next (effect s)

/-- LATCH goes to its reset level 1 under RST (R127). While it was low, RST is in the middle of a frame and the edge is a rising one:
OUT takes a free value, of which SR is one (93 U19; DEDUCED, log entry 7), and `Latched` of that value is emitted (R14). Where it was
high there is no edge and OUT stays (DEDUCED, log entry 23). -/
def State.resetLatch (s : State) : State :=
  if !s.latch && latchReset then
    ({ s with latch := latchReset, out := Config.outAfterReset s.choices s.sr, choices := s.choices + 1 } : State).emit
      (.latched (Config.outAfterReset s.choices s.sr))
  else { s with latch := latchReset }

/-- RST goes to 1 (R127): the Clock State and the pins take their reset levels at once, Q is emptied, SR stays, and OUT is what
`resetLatch` leaves. -/
def State.assertReset (s : State) : State :=
  { s.resetLatch with
    sec := secReset, min := minReset, sclk := sclkReset, sdata := sdataReset, q := [], rst := true }

/-- RST goes to 0 (R127; log entry 21). -/
def State.releaseReset (s : State) : State := { s with rst := false }

end Sys2Proof.Machine
end

