-- ==== Sys2Proof/Machine/DigitRenderer.lean ====
section
/-! DEFINITION. The Digit Renderer's command (41 R86). -/

namespace Sys2Proof.Machine

/-- `RENDER n, sd, dp` (R86): Q <- RenderSeq(n, sd, dp), the operands taken here and not looked at again (R21). -/
def execRender (n : Number) (sd : Bool) (dpf : BitVec 3) (s : State) : Host.Outcome State Fault Refusal :=
  offerCommand (.render n sd dpf) (State.load (renderSeq s.cfg n sd dpf)) s

end Sys2Proof.Machine
end

