-- ==== Sys2Proof/Machine/ShiftRegisterDriver.lean ====
section
/-! DEFINITION. The Shift-Register Driver's commands (40 R72, R74). -/

namespace Sys2Proof.Machine

/-- `SHIFTOUT b` (R72): Q <- ShiftSeq(b). -/
def execShiftout (b : Byte) (s : State) : Host.Outcome State Fault Refusal :=
  offerCommand (.shiftout b) (State.load (shiftSeq b)) s

/-- `WRITEFRAME s, d` (R74): Q <- FrameSeq(s, d). -/
def execWriteframe (seg d : Byte) (s : State) : Host.Outcome State Fault Refusal :=
  offerCommand (.writeframe seg d) (State.load (frameSeq seg d)) s

end Sys2Proof.Machine
end

