-- ==== Sys2Proof/Machine/Timekeeper.lean ====
section
/-! DEFINITION. The Timekeeper's operations (42 R90, R92, R94). They touch no pin and leave Q, SR and OUT alone. -/

namespace Sys2Proof.Machine

/-- `CLKRST` (R92): SEC <- 0, MIN <- 0. -/
def execClkrst (s : State) : Host.Outcome State Fault Refusal :=
  offerCommand .clkrst (State.writeClock 0 0) s

/-- `RDCLK` (R94): present RMIN, RSEC and RMMSS, taken from one state. -/
def execRdclk (s : State) : Host.Outcome State Fault Refusal :=
  offerCommand .rdclk State.readClock s

/-- `TICK` (R90): enabled in every state out of reset, whatever Q holds. -/
def execTick (s : State) : Host.Outcome State Fault Refusal :=
  takeEvent State.tickClock s

end Sys2Proof.Machine
end

