-- ==== Sys2Proof/Machine/Dispatch.lean ====
section
/-! DEFINITION. One arm per operation of 00_scope R11, each one call of its meaning. -/

namespace Sys2Proof.Machine

def exec (i : Instr) (s : State) : Host.Outcome State Fault Refusal :=
  match i with
  | .shiftout b => Sys2Proof.Machine.execShiftout b s
  | .writeframe seg d => Sys2Proof.Machine.execWriteframe seg d s
  | .render n sd dpf => Sys2Proof.Machine.execRender n sd dpf s
  | .clkrst => Sys2Proof.Machine.execClkrst s
  | .rdclk => Sys2Proof.Machine.execRdclk s
  | .tick => Sys2Proof.Machine.execTick s

end Sys2Proof.Machine
end

