-- ==== Sys2Proof/Machine/Ports.lean ====
section
/-! DEFINITION. The block's input ports: what one input does to the state (00_scope R13; 30_encoding R49, R54; 60 R111, R115; 70 R127).
Machine/Step.lean only calls what stands here. -/

namespace Sys2Proof.Machine

/-- The refusal of a command word that fails a check of the word itself (R111). -/
def refusalOfWord : WordCheck → Refusal
  | .opcodeKnown => .opcodeKnown
  | .zeroBits => .zeroBits

/-- A word presented on the command port (R49). Under RST it is not accepted and has no effect (R127); while BUSY it is refused as
`Idle` without being decoded (R111, 90_conflicts C9; log entry 9); else it is decoded and run. -/
def presentCommand (w : CommandWord) (s : State) : Host.Outcome State Fault Refusal :=
  if s.rst then .next s
  else if s.busy then .refused .idle
  else match decodeCommand w with
    | .ok i => exec i s
    | .error e => .refused (refusalOfWord e)

/-- A level on TICK_IN in one cycle: 1 is one `TICK` event, 0 is none (R54). -/
def presentTick (v : BitVec 1) (s : State) : Host.Outcome State Fault Refusal :=
  match decode (.tickIn v) with
  | .ok i => exec i s
  | .error _ => .next s

/-- A firing and a command at the same instant (R115): the free value `Config.tickFirst` says which is taken in this step; the other is
the next input (log entry 5). -/
def presentBoth (w : CommandWord) (s : State) : Host.Outcome State Fault Refusal :=
  if Config.tickFirst s.choices then
    presentTick 1#1 { s with choices := s.choices + 1, inputs := .command w :: s.inputs }
  else
    presentCommand w { s with choices := s.choices + 1, inputs := .tick :: s.inputs }

/-- What one input does. -/
def runInput (x : Input) (s : State) : Host.Outcome State Fault Refusal :=
  match x with
  | .command w => presentCommand w s
  | .tick => presentTick 1#1 s
  | .commandAndTick w => presentBoth w s
  | .sequencer => .next s.sequencerStep
  | .assertReset => .next s.assertReset
  | .releaseReset => .next s.releaseReset

/-- The input that puts a port word on its port; a TICK_IN of 0 is no input (R49, R54). -/
def inputsOf : PortWord → List Input
  | .command w => [.command w]
  | .tickIn v => if v = 1#1 then [.tick] else []

end Sys2Proof.Machine
end

