-- ==== Sys2Proof/Machine/Step.lean ====
section
/-! DEFINITION. One atomic step of a run (00_scope R13): the oldest input is taken; when none is left, the sequencer is the agent that
moves, and an idle block stays as it is (70 R128; DESIGN CHOICE, log entry 4). -/

namespace Sys2Proof.Machine

def step (s : State) : Host.Outcome State Fault Refusal :=
  match s.inputs with
  | [] => .next s.sequencerStep
  | x :: rest => runInput x { s with inputs := rest }

/-- s with a table row's word as its next input, before the inputs already there: what the outside world presents (log entry 13). -/
def State.withFetchWord (s : State) (nbits w : Nat) : State :=
  { s with inputs := inputsOf (portWordOf nbits w) ++ s.inputs }

end Sys2Proof.Machine
end

