-- ==== Sys2Proof/Machine/CounterForm.lean ====
section
/-! DEFINITION. The sequencer held as a counter (10_state R22): latched operands and the index USEQ instead of the list Q. The list form
is the model; this form is stated to be equivalent to it. -/

namespace Sys2Proof.Machine

/-- The counter form: a state whose Q is not used, the command with its latched operands, and USEQ. -/
structure CounterState where
  base : State
  command : Instr
  useq : Nat
deriving DecidableEq, Repr

/-- The operands an implementation latches (R22): for `RENDER`, n mod 10000. -/
def latchOperands : Instr → Instr
  | .shiftout b => .shiftout b
  | .writeframe s d => .writeframe s d
  | .render n sd dpf => .render (keptNumber n) sd dpf
  | .clkrst => .clkrst
  | .rdclk => .rdclk
  | .tick => .tick

/-- Accepting a command: latch its operands, USEQ counts from 0 (R22). -/
def CounterState.accept (i : Instr) (s : State) : CounterState :=
  { base := s, command := latchOperands i, useq := 0 }

/-- One step: perform Expand(c)[USEQ] and increment USEQ; the command has ended when USEQ has reached the length (R22). -/
def CounterState.advance (m : CounterState) : CounterState :=
  match (expand m.base.cfg m.command)[m.useq]? with
  | none => m
  | some op => { m with base := m.base.perform op, useq := m.useq + 1 }

/-- The list form of a counter state. -/
def CounterState.toList (m : CounterState) : State :=
  { m.base with q := (expand m.base.cfg m.command).drop m.useq }

end Sys2Proof.Machine
end

