-- ==== Sys2Proof/Machine/Display.lean ====
section
/-! DEFINITION. What the display shows for a value of OUT (41 R88), and what R81 and R83 ask of a configuration. No step reads
anything of this file. -/

namespace Sys2Proof.Machine

/-- The seven segments in order. -/
def allSegs : List Seg := [.a, .b, .c, .d, .e, .f, .g]

/-- Segment x is lit iff S[bit(x)] has the level that lights: 0, active-low (R5, R55, R88). -/
def litSegments (c : Config) (seg : Byte) : List Seg :=
  allSegs.filter fun x => seg.getLsbD (c.segBit.bitOf x).val == litLevel

/-- The point is lit iff its bit has the level that lights: active-low, (S & DP_MASK) = 0 (R88). -/
def pointLit (c : Config) (seg : Byte) : Bool := seg == litPoint c seg

/-- The digits of the table. -/
def digits : List (Fin lutSize) := List.finRange lutSize

/-- Glyph(S): the digit d with SEG_LUT[d] = S | DP_MASK, if there is one (R88). -/
def glyph (c : Config) (seg : Byte) : Option (Fin lutSize) :=
  digits.find? fun d => lutRead c d == darkPoint c seg

/-- What one value of OUT shows: the active position, its lit segments, its point, and the numeral the shape is, if it is one. -/
structure Shown where
  position : Fin ndigits
  lit : List Seg
  point : Bool
  numeral : Option (Fin lutSize)
deriving DecidableEq, Repr

/-- The display function (R88): defined for OUT = (S, D) with D one of the masks; for any other D it has no value
(log entry 20). -/
def display (c : Config) (out : Frame) : Option Shown :=
  match positions.find? fun p => digitSelectOf out == dsel p with
  | none => none
  | some p => some
      { position := p, lit := litSegments c (segmentsOf out), point := pointLit c (segmentsOf out),
        numeral := glyph c (segmentsOf out) }

/-- The shapes conventionally used for each numeral: those of R82, and for 6, 7 and 9 the variants of 93 U12
(PRESUMED, log entry 15). -/
def numeralShapes (d : Fin 10) : List (List Seg) :=
  match d with
  | 0 => [[.a, .b, .c, .d, .e, .f]]
  | 1 => [[.b, .c]]
  | 2 => [[.a, .b, .d, .e, .g]]
  | 3 => [[.a, .b, .c, .d, .g]]
  | 4 => [[.b, .c, .f, .g]]
  | 5 => [[.a, .c, .d, .f, .g]]
  | 6 => [[.a, .c, .d, .e, .f, .g], [.c, .d, .e, .f, .g]]
  | 7 => [[.a, .b, .c], [.a, .b, .c, .f]]
  | 8 => [[.a, .b, .c, .d, .e, .f, .g]]
  | 9 => [[.a, .b, .c, .d, .f, .g], [.a, .b, .c, .f, .g]]

/-- What R81 (a) to (e) and R83 ask of a configuration: DP_MASK has exactly one bit set, which drives no segment and is dark (1) in
every entry; the segments have bits of their own; each entry lights a shape conventionally used for its numeral; the entries differ. -/
abbrev ConfigWf (c : Config) : Prop :=
  (∃ k : Fin byteBits, c.dpMask = 1#8 <<< k.val) ∧
  (∀ x ∈ allSegs, c.dpMask.getLsbD (c.segBit.bitOf x).val = false) ∧
  (allSegs.map c.segBit.bitOf).Nodup ∧
  (∀ d ∈ digits, darkPoint c (lutRead c d) = lutRead c d) ∧
  (∀ d ∈ digits, litSegments c (lutRead c d) ∈ numeralShapes d) ∧
  (∀ d ∈ digits, ∀ e ∈ digits, lutRead c d = lutRead c e → d = e)

end Sys2Proof.Machine
end

