-- ==== Sys2Proof/Machine/Requests.lean ====
section
/-! DEFINITION. The pseudo-operations of 30_encoding R65, and the fields of the `RDCLK` response (R66). No step reads anything of
this file. -/

namespace Sys2Proof.Machine

/-- `TIME v` = `RENDER v, 0, -1` (R65, decision D15; log entry 18). -/
def timeRequest (v : Number) : Instr := .render v false 0b111#3

/-- `VOLT v, dp` = `RENDER v, 1, dp` (R65). -/
def voltRequest (v : Number) (dpf : BitVec 3) : Instr := .render v true dpf

/-- RMIN = RSP[26:20] (R66). -/
def rminOf (r : ResponseWord) : BitVec 7 := r.extractLsb' 20 7

/-- RSEC = RSP[19:14] (R66). -/
def rsecOf (r : ResponseWord) : BitVec 6 := r.extractLsb' 14 6

/-- RMMSS = RSP[13:0] (R66). -/
def rmmssOf (r : ResponseWord) : BitVec 14 := r.extractLsb' 0 14

/-- The second command of `SHOWCLOCK` (R65): after `RDCLK` has answered r, `TIME` of its RMMSS. -/
def showClockRequest (r : ResponseWord) : Instr := timeRequest ((rmmssOf r).setWidth 16)

end Sys2Proof.Machine
end

