-- ==== Sys2Proof/Safety.lean ====
section
/-! DEFINITION. The terms claims are stated in: what is observed of a run, the invariants of 10_state R31 and 70 R127. -/

namespace Sys2Proof.Machine

/-- The Clock State as a number of seconds, T = MIN × 60 + SEC (42 R98). -/
def State.clockTotal (s : State) : Nat := s.min.val * secMod + s.sec.val

/-- The event is one of the pin trace: a pin write, a latched frame or a dwell (20_memory R45). -/
def Event.onPins : Event → Bool
  | .pin _ _ => true
  | .latched _ => true
  | .dwell _ => true
  | .clockWrite _ _ => false
  | .clockRead _ _ => false

/-- The event is a latched frame (00_scope R14). -/
def Event.isLatched : Event → Bool
  | .pin _ _ => false
  | .latched _ => true
  | .dwell _ => false
  | .clockWrite _ _ => false
  | .clockRead _ _ => false

/-- The pin trace (20_memory R45): the events of the trace in order, the clock events left out. -/
def State.pinTrace (s : State) : List Event := s.trace.filter Event.onPins

/-- The clock events of the trace in order. -/
def State.clockTrace (s : State) : List Event := s.trace.filter fun e => !e.onPins

/-- The events of one bit on the wire. -/
def bitEvents (v : Bool) : List Event := [.pin .sdata v, .pin .sclk true, .pin .sclk false]

/-- The events of one byte on the wire (40 R72): most significant bit first. -/
def byteEvents (b : Byte) : List Event := msbFirst.flatMap fun i => bitEvents (b.getLsbD i)

/-- The events of one frame (40 R75). -/
def frameEvents (seg d : Byte) : List Event :=
  [.pin .latch false] ++ byteEvents seg ++ byteEvents d ++ [.pin .latch true, .latched (frameWord seg d)]

/-- The moves are all the tick source's and the sequencer's (20_memory R45): what can fall inside a command's expansion. -/
def TicksAndTurns (sched : List Input) : Prop := ∀ x ∈ sched, x = .tick ∨ x = .sequencer

/-- How often the sequencer moves. -/
def turns (sched : List Input) : Nat := sched.count .sequencer

/-- How often the tick source fires. -/
def firings (sched : List Input) : Nat := sched.count .tick

/-- The levels the lines rest at between commands (10_state R18, R19, R31 (c)). -/
def State.restLevels (s : State) : Prop := s.sclk = false ∧ s.latch = true

/-- The state once the sequencer has performed all that is pending. -/
def State.finish (s : State) : State := ({ s with q := [] } : State).drain s.q

/-- R31 (c) and (d), with what makes them inductive: Q is a suffix of one expansion of a well-formed command, and when the sequencer has
performed it the lines are at their rest levels. -/
def State.QueueInv (s : State) : Prop :=
  (∃ i : Instr, i.wellFormed = true ∧ ∃ k, s.q = (expand s.cfg i).drop k) ∧ s.finish.restLevels

/-- RST is not asserted again in the run (70 R127: "a model that wants to avoid this case takes reset only as the start of a run"). -/
def State.noReset (s : State) : Prop := Input.assertReset ∉ s.inputs

/-- R31 (e), with what makes it inductive: every frame latched so far, and every frame the pending work will latch, selects exactly one
position, and once a frame has been latched OUT holds a latched frame. -/
def State.FrameInv (s : State) : Prop :=
  (∀ w, Event.latched w ∈ s.finish.trace → frameOneHot (digitSelectOf w) = true) ∧
  (∀ w, Event.latched w ∈ s.trace → Event.latched s.out ∈ s.trace)

/-- What 70 R127 says of the time RST is asserted: the Clock State is 0:00, the lines are at their reset levels, nothing is pending. -/
def State.ResetInv (s : State) : Prop :=
  s.rst = true →
    s.sec = 0 ∧ s.min = 0 ∧ s.latch = true ∧ s.sclk = false ∧ s.sdata = false ∧ s.q = []

end Sys2Proof.Machine
end

