-- ==== Sys2Proof/Certificates/Slice0/Obligations.lean ====
section
/-! DEFINITION. The statements about SEG7MUX, each a proposition over the model and its encodings. None is about a program. In all of them
the configuration (SEG_LUT, DP_MASK, SEG_BIT) is whatever the state holds. -/

open Sys2Proof Sys2Proof.Machine

/-! ## Encoding -/

/-- R50 to R54, R60: decoding the encoded instruction gives it back, every operand at every value its field admits. -/
def Obligations.DecodeEncodeAgree : Prop :=
  ∀ i : Instr, decode (encode i) = .ok i

/-- R50 to R54, R60, R62: an instruction is read from one port word only, so no must-be-0 bit is ignored. -/
def Obligations.EncodeDecodeAgree : Prop :=
  ∀ (p : PortWord) (i : Instr), decode p = .ok i → encode i = p

/-- R60: a word decodes to a row iff (w & mask) = match; reserved opcodes are refused; no command word is `TICK`. -/
def Obligations.DecodeFollowsOpcodeMap : Prop :=
  ∀ w : CommandWord,
    ((∃ b, decodeCommand w = .ok (.shiftout b)) ↔ w &&& 0xFFFF00#24 = 0x100000#24) ∧
    ((∃ s d, decodeCommand w = .ok (.writeframe s d)) ↔ w &&& 0xFF0000#24 = 0x200000#24) ∧
    ((∃ n sd dpf, decodeCommand w = .ok (.render n sd dpf)) ↔ w &&& 0xF00000#24 = 0x300000#24) ∧
    (decodeCommand w = .ok .clkrst ↔ w &&& 0xFFFFFF#24 = 0x400000#24) ∧
    (decodeCommand w = .ok .rdclk ↔ w &&& 0xFFFFFF#24 = 0x500000#24) ∧
    (decodeCommand w = .error .opcodeKnown ↔ w.toNat / 2 ^ 20 = 0 ∨ 6 ≤ w.toNat / 2 ^ 20) ∧
    decodeCommand w ≠ .ok .tick

/-- R50 to R53: which words are read as each command, field by field: the opcode, the zero field, the operands, and the operand values
that are legal. -/
def Obligations.OperandFieldsOfWords : Prop :=
  ∀ w : CommandWord,
    (∀ b, decodeCommand w = .ok (.shiftout b) ↔
      w.toNat / 2 ^ 20 = 1 ∧ w.toNat / 2 ^ 8 % 2 ^ 12 = 0 ∧ w.toNat % 2 ^ 8 = b.toNat) ∧
    (∀ s d, decodeCommand w = .ok (.writeframe s d) ↔
      w.toNat / 2 ^ 20 = 2 ∧ w.toNat / 2 ^ 16 % 2 ^ 4 = 0 ∧ w.toNat / 2 ^ 8 % 2 ^ 8 = s.toNat ∧ w.toNat % 2 ^ 8 = d.toNat) ∧
    (∀ n sd dpf, decodeCommand w = .ok (.render n sd dpf) ↔
      w.toNat / 2 ^ 20 = 3 ∧ (w.toNat / 2 ^ 19 % 2 = 1 ↔ sd = true) ∧ w.toNat / 2 ^ 16 % 2 ^ 3 = dpf.toNat ∧
      w.toNat % 2 ^ 16 = n.toNat) ∧
    (decodeCommand w = .ok .clkrst ↔ w.toNat / 2 ^ 20 = 4 ∧ w.toNat % 2 ^ 20 = 0) ∧
    (decodeCommand w = .ok .rdclk ↔ w.toNat / 2 ^ 20 = 5 ∧ w.toNat % 2 ^ 20 = 0) ∧
    (∀ b, decodeCommand w = .ok (.shiftout b) → (Instr.shiftout b).wellFormed = true) ∧
    (∀ s d, decodeCommand w = .ok (.writeframe s d) →
      w.toNat % 2 ^ 16 = (frameWord s d).toNat ∧
      ((Instr.writeframe s d).wellFormed = true ↔ d ∈ [0x01#8, 0x02#8, 0x04#8, 0x08#8]))

/-- 95_test_vectors V1, S6: words written out by the spec, and the tick line. -/
def Obligations.SpecWordsDecode : Prop :=
  decode (.command 0x1000A5#24) = .ok (.shiftout 0xA5#8) ∧
  decode (.command 0x20A402#24) = .ok (.writeframe 0xA4#8 0x02#8) ∧
  decode (.command 0x3704D2#24) = .ok (.render 1234#16 false 0b111#3) ∧
  decode (.command 0x3900F5#24) = .ok (.render 245#16 true 0b001#3) ∧
  decode (.command 0x400000#24) = .ok .clkrst ∧
  decode (.command 0x500000#24) = .ok .rdclk ∧
  decode (.tickIn 1#1) = .ok .tick ∧
  encode (timeRequest 307#16) = .command 0x370133#24 ∧
  encode (voltRequest 245#16 0b001#3) = .command 0x3900F5#24

/-- R57: `dpf` = CW[18:16] read as a 3-bit two's complement number: the five legal patterns and their values, the three reserved ones, -1
no position, and every `sd` and `n` legal with a legal pattern. -/
def Obligations.DecimalPositionPatterns : Prop :=
  ∀ dpf : BitVec 3,
    (dpf.toNat ≤ 3 → decimalPosition dpf = dpf.toNat) ∧
    (dpf.toNat = 7 → decimalPosition dpf = -1 ∧ ∀ p : Fin 4, decimalPosition dpf ≠ (p.val : Int)) ∧
    (4 ≤ dpf.toNat ∧ dpf.toNat ≤ 6 → decimalPosition dpf = (dpf.toNat : Int) - 8) ∧
    ∀ (n : BitVec 16) (sd : Bool),
      ((Instr.render n sd dpf).wellFormed = true ↔ decimalPosition dpf ∈ ([-1, 0, 1, 2, 3] : List Int)) ∧
      ∃ w : CommandWord, encode (.render n sd dpf) = .command w ∧ w.toNat / 2 ^ 16 % 2 ^ 3 = dpf.toNat

/-! ## The command port -/

/-- R111: the refusals and their order; a word that fails no check is accepted in that step. -/
def Obligations.RefusalsInOrder : Prop :=
  ∀ (s : State) (w : CommandWord) (rest : List Input),
    s.inputs = .command w :: rest → s.rst = false →
    (s.busy = true → step s = .refused .idle) ∧
    (s.busy = false → w.toNat / 2 ^ 20 = 0 ∨ 6 ≤ w.toNat / 2 ^ 20 → step s = .refused .opcodeKnown) ∧
    (s.busy = false →
      (w.toNat / 2 ^ 20 = 1 ∧ w.toNat / 2 ^ 8 % 2 ^ 12 ≠ 0) ∨
      (w.toNat / 2 ^ 20 = 2 ∧ w.toNat / 2 ^ 16 % 2 ^ 4 ≠ 0) ∨
      ((w.toNat / 2 ^ 20 = 4 ∨ w.toNat / 2 ^ 20 = 5) ∧ w.toNat % 2 ^ 20 ≠ 0) →
      step s = .refused .zeroBits) ∧
    (s.busy = false → w.toNat / 2 ^ 20 = 3 →
      4 ≤ w.toNat / 2 ^ 16 % 2 ^ 3 ∧ w.toNat / 2 ^ 16 % 2 ^ 3 ≤ 6 → step s = .refused .dpInDomain) ∧
    (s.busy = false → w.toNat / 2 ^ 16 = 0x20 → w.toNat % 2 ^ 8 ∉ [1, 2, 4, 8] →
      step s = .refused .frameOneHot) ∧
    (s.busy = false →
      w.toNat / 2 ^ 8 = 0x1000 ∨
      (w.toNat / 2 ^ 16 = 0x20 ∧ w.toNat % 2 ^ 8 ∈ [1, 2, 4, 8]) ∨
      (w.toNat / 2 ^ 20 = 3 ∧ (w.toNat / 2 ^ 16 % 2 ^ 3 ≤ 3 ∨ w.toNat / 2 ^ 16 % 2 ^ 3 = 7)) ∨
      w.toNat = 0x400000 ∨ w.toNat = 0x500000 →
      ∃ t, step s = .next t ∧ t.inputs = rest)

/-- When the word presented decodes to i, the step is `exec i` on the state with that input taken off; a firing runs `TICK` so. -/
def Obligations.StepRunsDecodedInstruction : Prop :=
  (∀ (s : State) (w : CommandWord) (rest : List Input) (i : Instr),
    s.inputs = .command w :: rest → decode (.command w) = .ok i →
    step s = exec i { s with inputs := rest }) ∧
  (∀ (s : State) (rest : List Input),
    s.inputs = .tick :: rest → step s = exec .tick { s with inputs := rest })

/-- R108, R109: every well-formed command is accepted when CMD_READY = 1, and every firing is taken out of reset. -/
def Obligations.WellFormedIsAccepted : Prop :=
  (∀ (i : Instr) (s : State), i.wellFormed = true → s.cmdReady = true →
    ∃ t, exec i s = .next t ∧ t.inputs = s.inputs) ∧
  (∀ s : State, s.rst = false → ∃ t, exec .tick s = .next t ∧ t.q = s.q)

/-- R23: accepting SHIFTOUT, WRITEFRAME or RENDER sets BUSY; CLKRST, RDCLK and TICK leave it. -/
def Obligations.BusyFollowsCommands : Prop :=
  ∀ (i : Instr) (s t : State), s.rst = false → exec i s = .next t →
    (t.busy = true ↔
      match i with
      | .shiftout _ => True
      | .writeframe _ _ => True
      | .render _ _ _ => True
      | .clkrst => False
      | .rdclk => False
      | .tick => s.busy = true)

/-- R23, R142: how many sequencer steps each command takes, and that BUSY is 1 exactly until the last of them, whatever ticks fall
between. -/
def Obligations.BusyUntilLastStep : Prop :=
  (∀ (c : Config) (b x d : Byte) (n : BitVec 16) (sd : Bool) (dpf : BitVec 3),
    (expand c (.shiftout b)).length = 24 ∧ (expand c (.writeframe x d)).length = 50 ∧
    (expand c (.render n sd dpf)).length = 204 ∧ (expand c .clkrst).length = 0 ∧ (expand c .rdclk).length = 0 ∧
    (expand c .tick).length = 0) ∧
  ∀ (i : Instr) (s : State) (sched : List Input), s.cmdReady = true → i.wellFormed = true → TicksAndTurns sched →
    ∃ t, Host.Core.run Sys2Proof.core (sched.length + 1) { s with inputs := inputsOf (encode i) ++ sched } = .next t ∧
      t.q.length = (expand s.cfg i).length - turns sched ∧
      (t.busy = true ↔ turns sched < (expand s.cfg i).length)

/-! ## The Shift-Register Driver -/

/-- R67, R68, R69: the effect of each micro-operation. -/
def Obligations.MicroOperationEffects : Prop :=
  ∀ s : State,
    (∀ v, s.perform (.dat v) = { s with sdata := v, trace := s.trace ++ [.pin .sdata v] }) ∧
    (∀ v, s.perform (.clk v) =
      { s with
        sclk := v
        sr := if s.sclk = false ∧ v = true then s.sr.extractLsb' 0 15 ++ BitVec.ofBool s.sdata else s.sr
        trace := s.trace ++ [.pin .sclk v] }) ∧
    (∀ v, s.perform (.lat v) =
      { s with
        latch := v
        out := if s.latch = false ∧ v = true then s.sr else s.out
        trace := s.trace ++ [.pin .latch v] ++ if s.latch = false ∧ v = true then [.latched s.sr] else [] }) ∧
    (∀ p, s.perform (.dwell p) = { s with trace := s.trace ++ [.dwell p] })

/-- R70: the sequencer's step performs the head of Q and removes it, and never fails. -/
def Obligations.SequencerPerformsHead : Prop :=
  ∀ (s : State) (m : MicroOp) (rest : List MicroOp), s.rst = false → s.q = m :: rest →
    (s.inputs = [] → step s = .next (({ s with q := rest } : State).perform m)) ∧
    (∀ l, s.inputs = .sequencer :: l →
      step s = .next (({ s with q := rest, inputs := l } : State).perform m))

/-- R72: the acceptance step of `SHIFTOUT`: the 24 micro-operations, most significant bit first, and nothing else. -/
def Obligations.ShiftoutAccepted : Prop :=
  ∀ (b : Byte) (s : State), s.cmdReady = true →
    exec (.shiftout b) s = .next
      { s with
        q := [.dat (b.getLsbD 7), .clk true, .clk false, .dat (b.getLsbD 6), .clk true, .clk false,
          .dat (b.getLsbD 5), .clk true, .clk false, .dat (b.getLsbD 4), .clk true, .clk false,
          .dat (b.getLsbD 3), .clk true, .clk false, .dat (b.getLsbD 2), .clk true, .clk false,
          .dat (b.getLsbD 1), .clk true, .clk false, .dat (b.getLsbD 0), .clk true, .clk false] }

/-- R73: the net effect of `SHIFTOUT b` from SCLK = 0, whatever ticks fall between its steps. -/
def Obligations.ShiftoutNetEffect : Prop :=
  ∀ (b : Byte) (s : State) (sched : List Input), s.cmdReady = true → s.sclk = false →
    TicksAndTurns sched → turns sched = 24 →
    ∃ t, Host.Core.run Sys2Proof.core (sched.length + 1)
        { s with inputs := inputsOf (encode (.shiftout b)) ++ sched } = .next t ∧
      t.sr = s.sr.extractLsb' 0 8 ++ b ∧ t.sclk = false ∧ t.sdata = b.getLsbD 0 ∧
      t.latch = s.latch ∧ t.out = s.out ∧ t.q = [] ∧
      t.pinTrace = s.pinTrace ++ byteEvents b ∧
      t.clockTotal = (s.clockTotal + firings sched) % 6000

/-- R74: the acceptance step of `WRITEFRAME` with a select byte that is one of the masks: the latch bracket around both bytes. -/
def Obligations.WriteframeAccepted : Prop :=
  ∀ (x d : Byte) (s : State), s.cmdReady = true → d ∈ [0x01#8, 0x02#8, 0x04#8, 0x08#8] →
    exec (.writeframe x d) s = .next
      { s with q := .lat false :: ((shiftSeq x ++ shiftSeq d) ++ [.lat true]) }

/-- R75: `WRITEFRAME s, d` from the rest levels, whatever ticks fall between its steps: OUT as before through the first 49, and the net
effect of all 50. -/
def Obligations.WriteframeNetEffect : Prop :=
  ∀ (x d : Byte) (s : State) (sched : List Input), s.cmdReady = true → s.restLevels → frameOneHot d = true →
    TicksAndTurns sched → turns sched ≤ 50 →
    ∃ t, Host.Core.run Sys2Proof.core (sched.length + 1)
        { s with inputs := inputsOf (encode (.writeframe x d)) ++ sched } = .next t ∧
      t.clockTotal = (s.clockTotal + firings sched) % 6000 ∧
      (turns sched ≤ 49 → t.out = s.out) ∧
      (turns sched = 50 →
        t.sr = x ++ d ∧ t.out = x ++ d ∧ t.latch = true ∧ t.sclk = false ∧ t.sdata = d.getLsbD 0 ∧ t.q = [] ∧
        t.pinTrace = s.pinTrace ++
          (.pin .latch false :: (byteEvents x ++ byteEvents d ++ [.pin .latch true, .latched (x ++ d)])))

/-- R41, R75, R76: OUT keeps the previous frame whole through the first 49 steps of a frame. -/
def Obligations.PartialFrameInvisible : Prop :=
  ∀ (x d : Byte) (s : State) (sched : List Input), s.cmdReady = true → s.restLevels → frameOneHot d = true →
    TicksAndTurns sched → turns sched ≤ 49 →
    ∃ t, Host.Core.run Sys2Proof.core (sched.length + 1)
        { s with inputs := inputsOf (encode (.writeframe x d)) ++ sched } = .next t ∧
      t.out = s.out ∧ t.busy = true ∧ (∀ w, Event.latched w ∈ t.trace → Event.latched w ∈ s.trace)

/-- R29, R75: after one complete frame nothing at all depends on what SR and OUT held before it. -/
def Obligations.FirstFrameDefinesRegister : Prop :=
  ∀ (x d : Byte) (s : State) (sr out : Frame), s.cmdReady = true → s.restLevels → frameOneHot d = true →
    ∃ t, Host.Core.run Sys2Proof.core 51 { s with inputs := inputsOf (encode (.writeframe x d)) } = .next t ∧
      Host.Core.run Sys2Proof.core 51
        { s with sr := sr, out := out, inputs := inputsOf (encode (.writeframe x d)) } = .next t

/-- R28, R69: in every step that does not assert RST, OUT takes SR exactly when LATCH rises, and `Latched` of that SR is emitted exactly
then; and in a step of any kind in which LATCH does not rise, OUT does not change and nothing is latched. R69 speaks of LATCH being
written, which RST does not do: the rising edge RST makes is in `AssertedResetLevels` (log entry 7), and that OUT keeps its word in the
step that asserts RST with LATCH high, which the second clause says too, is the model's reading (log entry 23), where R29 and R129 give
OUT no value after reset. -/
def Obligations.OutFollowsLatchEdges : Prop :=
  (∀ s t : State, s.inputs.head? ≠ some .assertReset → step s = .next t →
    t.out = (if s.latch = false ∧ t.latch = true then s.sr else s.out) ∧
    t.trace.filter Event.isLatched =
      s.trace.filter Event.isLatched ++ if s.latch = false ∧ t.latch = true then [.latched s.sr] else []) ∧
  (∀ s t : State, ¬(s.latch = false ∧ t.latch = true) → step s = .next t →
    t.out = s.out ∧ t.trace.filter Event.isLatched = s.trace.filter Event.isLatched)

/-- R27, R68: in every step SR shifts in SDATA at its low end exactly when SCLK rises, and a shift does not affect OUT.
That SR keeps its word in the step that asserts RST, which is one of them, is the model's reading (log entry 23), where R29 and R129
give SR no value after reset. -/
def Obligations.ShiftStageFollowsClockEdges : Prop :=
  ∀ s t : State, step s = .next t →
    (t.sr = if s.sclk = false ∧ t.sclk = true then s.sr.extractLsb' 0 15 ++ BitVec.ofBool s.sdata else s.sr) ∧
    (s.sclk = false ∧ t.sclk = true → t.out = s.out)

/-- R77, R119: the lines, SR and OUT change only in a step of the sequencer or of RST, and nothing else emits a pin event. -/
def Obligations.OneWriterOfTheLines : Prop :=
  ∀ (s t : State) (x : Input) (rest : List Input), s.inputs = x :: rest → x ≠ .sequencer → x ≠ .assertReset →
    step s = .next t →
    t.latch = s.latch ∧ t.sclk = s.sclk ∧ t.sdata = s.sdata ∧ t.sr = s.sr ∧ t.out = s.out ∧ t.pinTrace = s.pinTrace

/-! ## The Digit Renderer -/

/-- R86, R83, R84: the acceptance step of `RENDER` with a legal `dpf`: four frames, leftmost first, a dwell after each. -/
def Obligations.RenderAccepted : Prop :=
  ∀ (n : BitVec 16) (sd : Bool) (dpf : BitVec 3) (s : State), s.cmdReady = true →
    decimalPosition dpf ∈ ([-1, 0, 1, 2, 3] : List Int) →
    ∃ pat : Fin 4 → Byte,
      (∀ p, pat p =
        if sd = true ∧ decimalPosition dpf = (p.val : Int) then lutRead s.cfg (digit n p) &&& ~~~s.cfg.dpMask
        else lutRead s.cfg (digit n p)) ∧
      exec (.render n sd dpf) s = .next
        { s with
          q := (frameSeq (pat 0) 0x01#8 ++ [.dwell 0]) ++ (frameSeq (pat 1) 0x02#8 ++ [.dwell 1]) ++
            (frameSeq (pat 2) 0x04#8 ++ [.dwell 2]) ++ (frameSeq (pat 3) 0x08#8 ++ [.dwell 3]) }

/-- R87: the net effect of `RENDER n, sd, dp` from the rest levels, whatever ticks fall between its steps. -/
def Obligations.RenderNetEffect : Prop :=
  ∀ (n : BitVec 16) (sd : Bool) (dpf : BitVec 3) (s : State) (sched : List Input), s.cmdReady = true → s.restLevels →
    dpInDomain dpf = true → TicksAndTurns sched → turns sched = 204 →
    ∃ t, Host.Core.run Sys2Proof.core (sched.length + 1)
        { s with inputs := inputsOf (encode (.render n sd dpf)) ++ sched } = .next t ∧
      t.sr = pattern s.cfg n sd dpf 3 ++ 0x08#8 ∧ t.out = pattern s.cfg n sd dpf 3 ++ 0x08#8 ∧
      t.latch = true ∧ t.sclk = false ∧ t.sdata = false ∧ t.q = [] ∧
      t.pinTrace = s.pinTrace ++
        ((frameEvents (pattern s.cfg n sd dpf 0) 0x01#8 ++ [.dwell 0]) ++
          (frameEvents (pattern s.cfg n sd dpf 1) 0x02#8 ++ [.dwell 1]) ++
          (frameEvents (pattern s.cfg n sd dpf 2) 0x04#8 ++ [.dwell 2]) ++
          (frameEvents (pattern s.cfg n sd dpf 3) 0x08#8 ++ [.dwell 3])) ∧
      t.clockTotal = (s.clockTotal + firings sched) % 6000

/-- R76, R87, 95_test_vectors P1: OUT through a `RENDER`: the old frame for 49 steps, then each digit's frame for 51, the last one on. -/
def Obligations.RenderFramesInTurn : Prop :=
  ∀ (n : BitVec 16) (sd : Bool) (dpf : BitVec 3) (s : State) (sched : List Input), s.cmdReady = true → s.restLevels →
    dpInDomain dpf = true → TicksAndTurns sched → turns sched ≤ 204 →
    ∃ t, Host.Core.run Sys2Proof.core (sched.length + 1)
        { s with inputs := inputsOf (encode (.render n sd dpf)) ++ sched } = .next t ∧
      t.out =
        if turns sched < 50 then s.out
        else if turns sched < 101 then renderFrame s.cfg n sd dpf 0
        else if turns sched < 152 then renderFrame s.cfg n sd dpf 1
        else if turns sched < 203 then renderFrame s.cfg n sd dpf 2
        else renderFrame s.cfg n sd dpf 3

/-- R78, R97: four digits reconstruct n mod 10000, and those of a packed clock value read minutes, then seconds. -/
def Obligations.DigitsReconstruct : Prop :=
  (∀ n : BitVec 16,
    n.toNat % 10000 =
      1000 * (digit n 0).val + 100 * (digit n 1).val + 10 * (digit n 2).val + (digit n 3).val) ∧
  (∀ (m : Fin 100) (c : Fin 60) (v : BitVec 16), v.toNat = m.val * 100 + c.val →
    (digit v 0).val = m.val / 10 ∧ (digit v 1).val = m.val % 10 ∧
    (digit v 2).val = c.val / 10 ∧ (digit v 3).val = c.val % 10 ∧ (digit v 2).val ≤ 5)

/-- R79: a number of more than four digits renders as its low four. -/
def Obligations.RenderTruncates : Prop :=
  ∀ (c : Config) (n m : BitVec 16) (sd : Bool) (dpf : BitVec 3), n.toNat % 10000 = m.toNat % 10000 →
    (∀ p, digit n p = digit m p) ∧ renderSeq c n sd dpf = renderSeq c m sd dpf

/-- R81, R83, R84, R88: under every configuration R81 allows, the frame of position p shows the digit of n there, with that numeral's
own segments, and its point is lit exactly where `showDecimal` holds and p is `decimalPosition`. -/
def Obligations.FramesShowTheirDigits : Prop :=
  ∀ (c : Config) (n : BitVec 16) (sd : Bool) (dpf : BitVec 3) (p : Fin 4), ConfigWf c →
    ∃ v, display c (renderFrame c n sd dpf p) = some v ∧ v.position = p ∧ v.numeral = some (digit n p) ∧
      v.lit ∈ numeralShapes (digit n p) ∧
      (v.point = true ↔ sd = true ∧ decimalPosition dpf = (p.val : Int))

/-- R83: the point is lit at position p iff sd = 1 and dp = p, by clearing the one bit of `DP_MASK` in that digit's pattern: so at most one
position of a refresh cycle has it lit, and none with sd = 0 or dp = -1. -/
def Obligations.AtMostOnePoint : Prop :=
  ∀ (c : Config) (n : BitVec 16) (sd : Bool) (dpf : BitVec 3), ConfigWf c →
    (∃ k : Fin 8, c.dpMask = 1#8 <<< k.val) ∧
    (∀ p : Fin 4, pattern c n sd dpf p =
      if sd = true ∧ decimalPosition dpf = (p.val : Int) then lutRead c (digit n p) &&& ~~~c.dpMask
      else lutRead c (digit n p)) ∧
    (∀ p : Fin 4, pointLit c (pattern c n sd dpf p) = true ↔ sd = true ∧ decimalPosition dpf = (p.val : Int)) ∧
    (∀ p q : Fin 4, pointLit c (pattern c n sd dpf p) = true → pointLit c (pattern c n sd dpf q) = true → p = q) ∧
    (sd = false ∨ decimalPosition dpf = -1 → ∀ p : Fin 4, pointLit c (pattern c n sd dpf p) = false)

/-! ## The Timekeeper -/

/-- R90: `TICK` out of reset, whatever Q holds. -/
def Obligations.TickAdvancesClock : Prop :=
  ∀ s : State, s.rst = false →
    ∃ t, exec .tick s = .next t ∧
      (if s.sec.val + 1 = 60 then t.sec.val = 0 ∧ t.min.val = (s.min.val + 1) % 100
        else t.sec.val = s.sec.val + 1 ∧ t.min = s.min) ∧
      t = { s with sec := t.sec, min := t.min, trace := s.trace ++ [.clockWrite t.min t.sec] }

/-- R92: `CLKRST` sets both fields to 0, emits the event, and leaves everything else. -/
def Obligations.ClkrstZeroesClock : Prop :=
  ∀ s : State, s.cmdReady = true →
    exec .clkrst s = .next { s with sec := 0, min := 0, trace := s.trace ++ [.clockWrite 0 0] }

/-- R66, R94: `RDCLK` presents RMIN, RSEC and RMMSS of one state and changes no state. -/
def Obligations.RdclkPresentsClock : Prop :=
  ∀ s : State, s.cmdReady = true →
    ∃ r : ResponseWord,
      exec .rdclk s = .next
        { s with responses := s.responses ++ [r], trace := s.trace ++ [.clockRead s.min s.sec] } ∧
      (r.extractLsb' 20 7).toNat = s.min.val ∧ (r.extractLsb' 14 6).toNat = s.sec.val ∧
      (r.extractLsb' 0 14).toNat = s.min.val * 100 + s.sec.val

/-- R98: k ticks in a row, from any state out of reset, with the document's two instances. -/
def Obligations.TicksClosedForm : Prop :=
  ∀ (k : Nat) (s : State) (rest : List Input), s.rst = false → s.inputs = List.replicate k .tick ++ rest →
    ∃ t, Host.Core.run Sys2Proof.core k s = .next t ∧ t.inputs = rest ∧
      t.sec.val = (s.clockTotal + k) % 6000 % 60 ∧ t.min.val = (s.clockTotal + k) % 6000 / 60 ∧
      (s.sec = 0 → s.min = 0 → k = 60 → t.sec = 0 ∧ t.min = 1) ∧
      (s.sec = 0 → s.min = 0 → k = 6000 → t.sec = 0 ∧ t.min = 0)

/-- R115 (log entry 5): a firing and a command at the same instant run as one of the two serial orders, whatever the command is. -/
def Obligations.CoincidenceIsASerialOrder : Prop :=
  ∀ (s : State) (w : CommandWord) (rest : List Input),
    Host.Core.run Sys2Proof.core 2 { s with inputs := .commandAndTick w :: rest } =
        Host.Core.run Sys2Proof.core 2 { s with choices := s.choices + 1, inputs := .tick :: .command w :: rest } ∨
      Host.Core.run Sys2Proof.core 2 { s with inputs := .commandAndTick w :: rest } =
        Host.Core.run Sys2Proof.core 2 { s with choices := s.choices + 1, inputs := .command w :: .tick :: rest }

/-- R93, R115: a firing and `CLKRST` at the same instant end in (SEC, MIN) = (0, 0) or (1, 0), by the order taken; in the two fixed
orders in the one or the other. -/
def Obligations.TickAgainstClkrst : Prop :=
  ∀ (s : State) (w : CommandWord) (rest : List Input), s.cmdReady = true → decode (.command w) = .ok .clkrst →
    (∃ t, Host.Core.run Sys2Proof.core 2 { s with inputs := .commandAndTick w :: rest } = .next t ∧
      t.inputs = rest ∧ ((t.sec = 0 ∧ t.min = 0) ∨ (t.sec = 1 ∧ t.min = 0))) ∧
    (∃ t, Host.Core.run Sys2Proof.core 2 { s with inputs := .tick :: .command w :: rest } = .next t ∧
      t.sec = 0 ∧ t.min = 0) ∧
    (∃ t, Host.Core.run Sys2Proof.core 2 { s with inputs := .command w :: .tick :: rest } = .next t ∧
      t.sec = 1 ∧ t.min = 0)

/-- R95, R115: a firing and `RDCLK` at the same instant: the response is the whole pair before the tick or the whole pair after it, and the
clock ends ticked once. -/
def Obligations.TickAgainstRdclk : Prop :=
  ∀ (s : State) (w : CommandWord) (rest : List Input), s.cmdReady = true → decode (.command w) = .ok .rdclk →
    ∃ (t : State) (r : ResponseWord),
      Host.Core.run Sys2Proof.core 2 { s with inputs := .commandAndTick w :: rest } = .next t ∧
      t.responses = s.responses ++ [r] ∧ t.clockTotal = (s.clockTotal + 1) % 6000 ∧
      (((rminOf r).toNat = s.min.val ∧ (rsecOf r).toNat = s.sec.val ∧
          (rmmssOf r).toNat = s.min.val * 100 + s.sec.val) ∨
        ((rminOf r).toNat = t.min.val ∧ (rsecOf r).toNat = t.sec.val ∧
          (rmmssOf r).toNat = t.min.val * 100 + t.sec.val))

/-- R16, R17, R122: in every step the Clock State stays, advances by one tick, or goes to 0:00, and MIN changes without going to 0:00
only in a step in which SEC goes from 59 to 0. -/
def Obligations.ClockMovesOnlySo : Prop :=
  ∀ s t : State, step s = .next t →
    ((t.sec = s.sec ∧ t.min = s.min) ∨ t.clockTotal = (s.clockTotal + 1) % 6000 ∨ (t.sec = 0 ∧ t.min = 0)) ∧
    (t.min ≠ s.min → t.min ≠ 0 → s.sec.val = 59 ∧ t.sec = 0 ∧ t.min.val = s.min.val + 1)

/-- R65, R66, R97, R103: after `RDCLK`, the `TIME` request of its RMMSS shows minutes, then seconds. -/
def Obligations.ShowClockShowsMinutesSeconds : Prop :=
  ∀ s : State, s.cmdReady = true →
    ∃ (r : ResponseWord) (n : BitVec 16), exec .rdclk s = .next
        { s with responses := s.responses ++ [r], trace := s.trace ++ [.clockRead s.min s.sec] } ∧
      showClockRequest r = .render n false 0b111#3 ∧
      (digit n 0).val = s.min.val / 10 ∧ (digit n 1).val = s.min.val % 10 ∧
      (digit n 2).val = s.sec.val / 10 ∧ (digit n 3).val = s.sec.val % 10

/-! ## Agents together -/

/-- R45: a firing moved across a step of the sequencer, or across the acceptance of SHIFTOUT, WRITEFRAME or RENDER, changes neither the
final state nor the pin trace; only where its `ClockWrite` stands in the trace moves. -/
def Obligations.TickCommutes : Prop :=
  ∀ (s t : State) (x : Input) (rest : List Input),
    (x = .sequencer ∨ ∃ w i, x = .command w ∧ decode (.command w) = .ok i ∧ i ≠ .clkrst ∧ i ≠ .rdclk) →
    Host.Core.run Sys2Proof.core 2 { s with inputs := .tick :: x :: rest } = .next t →
    ∃ u, Host.Core.run Sys2Proof.core 2 { s with inputs := x :: .tick :: rest } = .next u ∧
      u.pinTrace = t.pinTrace ∧ u.clockTrace = t.clockTrace ∧ { u with trace := t.trace } = t

/-- R44, R45, R98, R118: whatever ticks fall between the sequencer's steps, the pins, the downstream register, Q and the pin trace are those
of the sequencer's steps alone, and the clock is that of the ticks alone, one `ClockWrite` for each. -/
def Obligations.TicksDoNotDisturbTheSequencer : Prop :=
  ∀ (s : State) (sched : List Input), s.rst = false → TicksAndTurns sched →
    ∃ t u, Host.Core.run Sys2Proof.core sched.length { s with inputs := sched } = .next t ∧
      Host.Core.run Sys2Proof.core (turns sched) { s with inputs := [] } = .next u ∧
      t.latch = u.latch ∧ t.sclk = u.sclk ∧ t.sdata = u.sdata ∧ t.q = u.q ∧ t.sr = u.sr ∧ t.out = u.out ∧
      t.pinTrace = u.pinTrace ∧
      t.clockTotal = (s.clockTotal + firings sched) % 6000 ∧
      t.clockTrace.length = s.clockTrace.length + firings sched

/-- R119 and the rules of each operation: the frame of every instruction. -/
def Obligations.InstructionFrames : Prop :=
  ∀ (i : Instr) (s t : State), exec i s = .next t →
    (t.latch = s.latch ∧ t.sclk = s.sclk ∧ t.sdata = s.sdata ∧ t.sr = s.sr ∧ t.out = s.out ∧ t.rst = s.rst ∧
      t.cfg = s.cfg ∧ t.inputs = s.inputs ∧ t.choices = s.choices ∧ t.pinTrace = s.pinTrace) ∧
    (match i with
      | .shiftout _ => t.sec = s.sec ∧ t.min = s.min ∧ t.responses = s.responses ∧ t.trace = s.trace
      | .writeframe _ _ => t.sec = s.sec ∧ t.min = s.min ∧ t.responses = s.responses ∧ t.trace = s.trace
      | .render _ _ _ => t.sec = s.sec ∧ t.min = s.min ∧ t.responses = s.responses ∧ t.trace = s.trace
      | .clkrst => t.q = s.q ∧ t.responses = s.responses
      | .rdclk => t.q = s.q ∧ t.sec = s.sec ∧ t.min = s.min
      | .tick => t.q = s.q ∧ t.responses = s.responses)

/-- R22: the counter form, with its latched operands, is the list form: acceptance loads the same work, every step does the same, and
USEQ has reached the length exactly when Q is empty. -/
def Obligations.CounterFormEquivalent : Prop :=
  (∀ (i : Instr) (s : State), (CounterState.accept i s).toList = s.load (expand s.cfg i)) ∧
  (∀ m : CounterState, m.base.rst = false → m.advance.toList = m.toList.sequencerStep) ∧
  (∀ m : CounterState, m.toList.busy = false ↔ (expand m.base.cfg m.command).length ≤ m.useq)

/-! ## Reset and invariants -/

/-- R32, R128: the values the spec gives for the state after reset (SR and OUT have none, R29). -/
def Obligations.ResetValues : Prop :=
  State.reset.sec = 0 ∧ State.reset.min = 0 ∧ State.reset.latch = true ∧ State.reset.sclk = false ∧
  State.reset.sdata = false ∧ State.reset.q = [] ∧ State.reset.busy = false ∧ State.reset.cmdReady = true

/-- R127, 93 U19: asserting RST: the reset levels at once, Q emptied, SR kept. Where LATCH was low its edge is a rising one, and OUT is
a free value, of which nothing is said here but that `Latched` of it is all the step emits; where LATCH was high nothing is latched.
That SR keeps its word, that OUT does where LATCH was high, and the event of the edge are the model's readings (log entries 7 and 23):
R29 and R129 give SR and OUT no value after reset. -/
def Obligations.AssertedResetLevels : Prop :=
  ∀ (s : State) (rest : List Input), s.inputs = .assertReset :: rest →
    ∃ t, step s = .next t ∧
      t.sec = 0 ∧ t.min = 0 ∧ t.latch = true ∧ t.sclk = false ∧ t.sdata = false ∧ t.q = [] ∧ t.sr = s.sr ∧
      t.rst = true ∧ t.cmdReady = false ∧ t.cfg = s.cfg ∧ t.inputs = rest ∧ t.responses = s.responses ∧
      (s.latch = true → t.out = s.out ∧ t.trace = s.trace) ∧
      (s.latch = false → t.trace = s.trace ++ [.latched t.out])

/-- R49, R127: while RST is asserted a firing, a command and the sequencer's turn have no effect: only the input is used up. -/
def Obligations.NothingMovesUnderReset : Prop :=
  ∀ (s : State) (rest : List Input) (x : Input), s.rst = true → s.inputs = x :: rest →
    (x = .tick ∨ x = .sequencer ∨ ∃ w, x = .command w) → step s = .next { s with inputs := rest }

/-- R127: in every step that which RST asserted implies stays true: 0:00, the lines at their reset levels, Q empty. -/
def Obligations.ResetLevelsHeld : Prop :=
  ∀ s t : State, s.ResetInv → step s = .next t → t.ResetInv

/-- R31 (c), (d), with what makes them inductive: every step keeps Q a suffix of one expansion that leaves SCLK = 0 and LATCH = 1. -/
def Obligations.QueueInvariantKept : Prop :=
  ∀ s t : State, s.QueueInv → step s = .next t → t.QueueInv

/-- R18, R19, R21, R31 (c), (d): what the invariant says of a state: idle lines at rest, Q a suffix of one expansion, never longer than
204. -/
def Obligations.QueueInvariantMeaning : Prop :=
  ∀ s : State, s.QueueInv →
    (s.q = [] → s.sclk = false ∧ s.latch = true) ∧ s.q.length ≤ 204 ∧ ∃ i : Instr, s.q <:+ expand s.cfg i

/-- R31 (e): every step of a run that is not reset again keeps it so that every latched frame selects one position. -/
def Obligations.FrameInvariantKept : Prop :=
  ∀ s t : State, s.QueueInv → s.FrameInv → s.noReset → step s = .next t → t.FrameInv ∧ t.noReset

/-- R31 (e), R88: under that invariant, once a frame has been latched OUT selects exactly one position and the display is defined. -/
def Obligations.LatchedOutIsDisplayable : Prop :=
  ∀ (s : State) (w : Frame), s.FrameInv → Event.latched w ∈ s.trace →
    digitSelectOf s.out ∈ [0x01#8, 0x02#8, 0x04#8, 0x08#8] ∧ (display s.cfg s.out).isSome = true

/-- The three invariants hold at reset. -/
def Obligations.InvariantsAtReset : Prop :=
  State.reset.ResetInv ∧ State.reset.QueueInv ∧ State.reset.FrameInv ∧ State.reset.noReset

/-- R25, R48, R130: no step, RST included, changes the configuration. -/
def Obligations.ConfigurationConstant : Prop :=
  ∀ s t : State, step s = .next t → t.cfg = s.cfg

/-- R14: the trace only grows, by at most two events a step, two only when a LATCH write makes a rising edge
(R75); a response comes only with its `ClockRead` (R66, R94). -/
def Obligations.TraceOnlyGrows : Prop :=
  ∀ s t : State, step s = .next t →
    ∃ es rs, t.trace = s.trace ++ es ∧ t.responses = s.responses ++ rs ∧ rs.length ≤ 1 ∧
      (es = [] ∨ (∃ e, es = [e]) ∨ es = [.pin .latch true, .latched s.sr]) ∧
      (rs ≠ [] → es = [.clockRead s.min s.sec])
end

