-- ==== Sys2Proof/Laws/Parameters.lean ====
section
/-! SUPPORT. The value of each named parameter, so that later proofs need not unfold the configuration record; and, under those values,
the spec's own form of each operand function that reads one (R71, R78, R79, R83, R84, R88). -/

namespace Sys2Proof.Machine

/-! ### Values -/

@[simp] theorem digitMod_eq : digitMod = 10000 := rfl

@[simp] theorem mmssScale_eq : mmssScale = 100 := rfl

@[simp] theorem dpPosSet_eq : dpPosSet = [-1, 0, 1, 2, 3] := rfl

@[simp] theorem litLevel_eq : litLevel = false := rfl

@[simp] theorem secReset_eq : secReset = 0 := rfl

@[simp] theorem minReset_eq : minReset = 0 := rfl

@[simp] theorem latchReset_eq : latchReset = true := rfl

@[simp] theorem sclkReset_eq : sclkReset = false := rfl

@[simp] theorem sdataReset_eq : sdataReset = false := rfl

theorem positions_eq : positions = [0, 1, 2, 3] := rfl

theorem digits_eq : digits = [0, 1, 2, 3, 4, 5, 6, 7, 8, 9] := rfl

theorem msbFirst_eq : msbFirst = [7, 6, 5, 4, 3, 2, 1, 0] := rfl

theorem dsel_eq (p : Fin ndigits) : dsel p = 1#8 <<< p.val := by
  revert p; decide

/-! ### Widths, with their numbers -/

theorem byte_lt (b : Byte) : b.toNat < 2 ^ 8 := b.isLt

theorem frame_lt (w : Frame) : w.toNat < 2 ^ 16 := w.isLt

theorem number_lt (n : Number) : n.toNat < 2 ^ 16 := n.isLt

theorem commandWord_lt (w : CommandWord) : w.toNat < 2 ^ 24 := w.isLt

/-! ### The decimal point -/

@[simp] theorem litPoint_eq (c : Config) (seg : Byte) : litPoint c seg = seg &&& ~~~c.dpMask := rfl

@[simp] theorem darkPoint_eq (c : Config) (seg : Byte) : darkPoint c seg = seg ||| c.dpMask := rfl

/-- The point is lit iff (S & DP_MASK) = 0 (R88). -/
theorem pointLit_iff (c : Config) (seg : Byte) : pointLit c seg = true ↔ seg &&& c.dpMask = 0#8 := by
  simp only [pointLit, litPoint_eq, beq_iff_eq]
  constructor
  · intro h
    rw [h, BitVec.and_assoc, BitVec.and_comm (~~~c.dpMask), BitVec.and_not_self]
    exact BitVec.and_zero
  · intro h
    calc seg = seg &&& (c.dpMask ||| ~~~c.dpMask) := by rw [BitVec.or_not_self, BitVec.and_allOnes]
      _ = seg &&& ~~~c.dpMask := by rw [BitVec.and_or_distrib_left, h, BitVec.zero_or]

/-! ### Digits -/

/-- The four digits as R78 writes them. -/
theorem digit_val (n : Number) :
    (digit n 0).val = n.toNat / 1000 % 10 ∧ (digit n 1).val = n.toNat / 100 % 10 ∧
    (digit n 2).val = n.toNat / 10 % 10 ∧ (digit n 3).val = n.toNat % 10 := by
  exact ⟨rfl, rfl, rfl, by simp [digit]⟩

theorem keptNumber_toNat (n : Number) : (keptNumber n).toNat = n.toNat % 10000 := by
  have := number_lt n
  simp only [keptNumber, digitMod_eq, BitVec.toNat_ofNat]
  omega

/-- dig(n, p) = dig(n mod 10000, p): what `render` keeps is all that its digits read (R79). -/
theorem digit_keptNumber (n : Number) (p : Fin ndigits) : digit (keptNumber n) p = digit n p := by
  apply Fin.ext
  simp only [digit, keptNumber_toNat, ndigits]
  fin_cases p <;> simp <;> omega

theorem pattern_keptNumber (c : Config) (n : Number) (sd : Bool) (dpf : BitVec 3) (p : Fin ndigits) :
    pattern c (keptNumber n) sd dpf p = pattern c n sd dpf p := by
  simp only [pattern, digit_keptNumber]

/-! ### Expansions -/

/-- FrameSeq(s, d) as R71 writes it. -/
theorem frameSeq_eq (s d : Byte) : frameSeq s d = [.lat false] ++ shiftSeq s ++ shiftSeq d ++ [.lat true] := by
  simp [frameSeq, frameFields]

/-- RenderSeq(n, sd, dp) as R71 writes it. -/
theorem renderSeq_eq (c : Config) (n : Number) (sd : Bool) (dpf : BitVec 3) :
    renderSeq c n sd dpf = positions.flatMap fun p => frameSeq (pattern c n sd dpf p) (dsel p) ++ [.dwell p] := by
  simp only [renderSeq, pattern_keptNumber]

end Sys2Proof.Machine
end

