-- ==== Sys2Proof/Laws/State.lean ====
section
/-! SUPPORT. One lemma per field per update of State: what each named operation leaves in each field. -/

namespace Sys2Proof.Machine

/-! `emit` -/
@[simp] theorem State.emit_sec (e : Event) (s : State) : (s.emit e).sec = s.sec := rfl
@[simp] theorem State.emit_min (e : Event) (s : State) : (s.emit e).min = s.min := rfl
@[simp] theorem State.emit_latch (e : Event) (s : State) : (s.emit e).latch = s.latch := rfl
@[simp] theorem State.emit_sclk (e : Event) (s : State) : (s.emit e).sclk = s.sclk := rfl
@[simp] theorem State.emit_sdata (e : Event) (s : State) : (s.emit e).sdata = s.sdata := rfl
@[simp] theorem State.emit_q (e : Event) (s : State) : (s.emit e).q = s.q := rfl
@[simp] theorem State.emit_sr (e : Event) (s : State) : (s.emit e).sr = s.sr := rfl
@[simp] theorem State.emit_out (e : Event) (s : State) : (s.emit e).out = s.out := rfl
@[simp] theorem State.emit_rst (e : Event) (s : State) : (s.emit e).rst = s.rst := rfl
@[simp] theorem State.emit_cfg (e : Event) (s : State) : (s.emit e).cfg = s.cfg := rfl
@[simp] theorem State.emit_inputs (e : Event) (s : State) : (s.emit e).inputs = s.inputs := rfl
@[simp] theorem State.emit_choices (e : Event) (s : State) : (s.emit e).choices = s.choices := rfl
@[simp] theorem State.emit_trace (e : Event) (s : State) : (s.emit e).trace = s.trace ++ [e] := rfl
@[simp] theorem State.emit_responses (e : Event) (s : State) : (s.emit e).responses = s.responses := rfl

/-! `load` -/
@[simp] theorem State.load_sec (ops : List MicroOp) (s : State) : (s.load ops).sec = s.sec := rfl
@[simp] theorem State.load_min (ops : List MicroOp) (s : State) : (s.load ops).min = s.min := rfl
@[simp] theorem State.load_latch (ops : List MicroOp) (s : State) : (s.load ops).latch = s.latch := rfl
@[simp] theorem State.load_sclk (ops : List MicroOp) (s : State) : (s.load ops).sclk = s.sclk := rfl
@[simp] theorem State.load_sdata (ops : List MicroOp) (s : State) : (s.load ops).sdata = s.sdata := rfl
@[simp] theorem State.load_q (ops : List MicroOp) (s : State) : (s.load ops).q = ops := rfl
@[simp] theorem State.load_sr (ops : List MicroOp) (s : State) : (s.load ops).sr = s.sr := rfl
@[simp] theorem State.load_out (ops : List MicroOp) (s : State) : (s.load ops).out = s.out := rfl
@[simp] theorem State.load_rst (ops : List MicroOp) (s : State) : (s.load ops).rst = s.rst := rfl
@[simp] theorem State.load_cfg (ops : List MicroOp) (s : State) : (s.load ops).cfg = s.cfg := rfl
@[simp] theorem State.load_inputs (ops : List MicroOp) (s : State) : (s.load ops).inputs = s.inputs := rfl
@[simp] theorem State.load_choices (ops : List MicroOp) (s : State) : (s.load ops).choices = s.choices := rfl
@[simp] theorem State.load_trace (ops : List MicroOp) (s : State) : (s.load ops).trace = s.trace := rfl
@[simp] theorem State.load_responses (ops : List MicroOp) (s : State) : (s.load ops).responses = s.responses := rfl

/-! `writeClock` -/
@[simp] theorem State.writeClock_sec (m : Fin minMod) (c : Fin secMod) (s : State) : (s.writeClock m c).sec = c := rfl
@[simp] theorem State.writeClock_min (m : Fin minMod) (c : Fin secMod) (s : State) : (s.writeClock m c).min = m := rfl
@[simp] theorem State.writeClock_latch (m : Fin minMod) (c : Fin secMod) (s : State) : (s.writeClock m c).latch = s.latch := rfl
@[simp] theorem State.writeClock_sclk (m : Fin minMod) (c : Fin secMod) (s : State) : (s.writeClock m c).sclk = s.sclk := rfl
@[simp] theorem State.writeClock_sdata (m : Fin minMod) (c : Fin secMod) (s : State) : (s.writeClock m c).sdata = s.sdata := rfl
@[simp] theorem State.writeClock_q (m : Fin minMod) (c : Fin secMod) (s : State) : (s.writeClock m c).q = s.q := rfl
@[simp] theorem State.writeClock_sr (m : Fin minMod) (c : Fin secMod) (s : State) : (s.writeClock m c).sr = s.sr := rfl
@[simp] theorem State.writeClock_out (m : Fin minMod) (c : Fin secMod) (s : State) : (s.writeClock m c).out = s.out := rfl
@[simp] theorem State.writeClock_rst (m : Fin minMod) (c : Fin secMod) (s : State) : (s.writeClock m c).rst = s.rst := rfl
@[simp] theorem State.writeClock_cfg (m : Fin minMod) (c : Fin secMod) (s : State) : (s.writeClock m c).cfg = s.cfg := rfl
@[simp] theorem State.writeClock_inputs (m : Fin minMod) (c : Fin secMod) (s : State) : (s.writeClock m c).inputs = s.inputs := rfl
@[simp] theorem State.writeClock_choices (m : Fin minMod) (c : Fin secMod) (s : State) : (s.writeClock m c).choices = s.choices := rfl
@[simp] theorem State.writeClock_trace (m : Fin minMod) (c : Fin secMod) (s : State) : (s.writeClock m c).trace = s.trace ++ [.clockWrite m c] := rfl
@[simp] theorem State.writeClock_responses (m : Fin minMod) (c : Fin secMod) (s : State) : (s.writeClock m c).responses = s.responses := rfl

/-! `readClock` -/
@[simp] theorem State.readClock_sec (s : State) : (s.readClock).sec = s.sec := rfl
@[simp] theorem State.readClock_min (s : State) : (s.readClock).min = s.min := rfl
@[simp] theorem State.readClock_latch (s : State) : (s.readClock).latch = s.latch := rfl
@[simp] theorem State.readClock_sclk (s : State) : (s.readClock).sclk = s.sclk := rfl
@[simp] theorem State.readClock_sdata (s : State) : (s.readClock).sdata = s.sdata := rfl
@[simp] theorem State.readClock_q (s : State) : (s.readClock).q = s.q := rfl
@[simp] theorem State.readClock_sr (s : State) : (s.readClock).sr = s.sr := rfl
@[simp] theorem State.readClock_out (s : State) : (s.readClock).out = s.out := rfl
@[simp] theorem State.readClock_rst (s : State) : (s.readClock).rst = s.rst := rfl
@[simp] theorem State.readClock_cfg (s : State) : (s.readClock).cfg = s.cfg := rfl
@[simp] theorem State.readClock_inputs (s : State) : (s.readClock).inputs = s.inputs := rfl
@[simp] theorem State.readClock_choices (s : State) : (s.readClock).choices = s.choices := rfl
@[simp] theorem State.readClock_trace (s : State) : (s.readClock).trace = s.trace ++ [.clockRead s.min s.sec] := rfl
@[simp] theorem State.readClock_responses (s : State) : (s.readClock).responses = s.responses ++ [responseWord s.min.val s.sec.val] := rfl

/-! `releaseReset` -/
@[simp] theorem State.releaseReset_sec (s : State) : (s.releaseReset).sec = s.sec := rfl
@[simp] theorem State.releaseReset_min (s : State) : (s.releaseReset).min = s.min := rfl
@[simp] theorem State.releaseReset_latch (s : State) : (s.releaseReset).latch = s.latch := rfl
@[simp] theorem State.releaseReset_sclk (s : State) : (s.releaseReset).sclk = s.sclk := rfl
@[simp] theorem State.releaseReset_sdata (s : State) : (s.releaseReset).sdata = s.sdata := rfl
@[simp] theorem State.releaseReset_q (s : State) : (s.releaseReset).q = s.q := rfl
@[simp] theorem State.releaseReset_sr (s : State) : (s.releaseReset).sr = s.sr := rfl
@[simp] theorem State.releaseReset_out (s : State) : (s.releaseReset).out = s.out := rfl
@[simp] theorem State.releaseReset_rst (s : State) : (s.releaseReset).rst = false := rfl
@[simp] theorem State.releaseReset_cfg (s : State) : (s.releaseReset).cfg = s.cfg := rfl
@[simp] theorem State.releaseReset_inputs (s : State) : (s.releaseReset).inputs = s.inputs := rfl
@[simp] theorem State.releaseReset_choices (s : State) : (s.releaseReset).choices = s.choices := rfl
@[simp] theorem State.releaseReset_trace (s : State) : (s.releaseReset).trace = s.trace := rfl
@[simp] theorem State.releaseReset_responses (s : State) : (s.releaseReset).responses = s.responses := rfl

/-! `driveSclk` -/
@[simp] theorem State.driveSclk_sec (v : Bool) (s : State) : (s.driveSclk v).sec = s.sec := by
  unfold State.driveSclk; split <;> rfl
@[simp] theorem State.driveSclk_min (v : Bool) (s : State) : (s.driveSclk v).min = s.min := by
  unfold State.driveSclk; split <;> rfl
@[simp] theorem State.driveSclk_latch (v : Bool) (s : State) : (s.driveSclk v).latch = s.latch := by
  unfold State.driveSclk; split <;> rfl
@[simp] theorem State.driveSclk_sclk (v : Bool) (s : State) : (s.driveSclk v).sclk = v := by
  unfold State.driveSclk; split <;> rfl
@[simp] theorem State.driveSclk_sdata (v : Bool) (s : State) : (s.driveSclk v).sdata = s.sdata := by
  unfold State.driveSclk; split <;> rfl
@[simp] theorem State.driveSclk_q (v : Bool) (s : State) : (s.driveSclk v).q = s.q := by
  unfold State.driveSclk; split <;> rfl
@[simp] theorem State.driveSclk_sr (v : Bool) (s : State) : (s.driveSclk v).sr = if !s.sclk && v then shiftIn s.sr s.sdata else s.sr := by
  unfold State.driveSclk; split <;> rfl
@[simp] theorem State.driveSclk_out (v : Bool) (s : State) : (s.driveSclk v).out = s.out := by
  unfold State.driveSclk; split <;> rfl
@[simp] theorem State.driveSclk_rst (v : Bool) (s : State) : (s.driveSclk v).rst = s.rst := by
  unfold State.driveSclk; split <;> rfl
@[simp] theorem State.driveSclk_cfg (v : Bool) (s : State) : (s.driveSclk v).cfg = s.cfg := by
  unfold State.driveSclk; split <;> rfl
@[simp] theorem State.driveSclk_inputs (v : Bool) (s : State) : (s.driveSclk v).inputs = s.inputs := by
  unfold State.driveSclk; split <;> rfl
@[simp] theorem State.driveSclk_choices (v : Bool) (s : State) : (s.driveSclk v).choices = s.choices := by
  unfold State.driveSclk; split <;> rfl
@[simp] theorem State.driveSclk_trace (v : Bool) (s : State) : (s.driveSclk v).trace = s.trace := by
  unfold State.driveSclk; split <;> rfl
@[simp] theorem State.driveSclk_responses (v : Bool) (s : State) : (s.driveSclk v).responses = s.responses := by
  unfold State.driveSclk; split <;> rfl

/-! `driveLatch` -/
@[simp] theorem State.driveLatch_sec (v : Bool) (s : State) : (s.driveLatch v).sec = s.sec := by
  unfold State.driveLatch; split <;> rfl
@[simp] theorem State.driveLatch_min (v : Bool) (s : State) : (s.driveLatch v).min = s.min := by
  unfold State.driveLatch; split <;> rfl
@[simp] theorem State.driveLatch_latch (v : Bool) (s : State) : (s.driveLatch v).latch = v := by
  unfold State.driveLatch; split <;> rfl
@[simp] theorem State.driveLatch_sclk (v : Bool) (s : State) : (s.driveLatch v).sclk = s.sclk := by
  unfold State.driveLatch; split <;> rfl
@[simp] theorem State.driveLatch_sdata (v : Bool) (s : State) : (s.driveLatch v).sdata = s.sdata := by
  unfold State.driveLatch; split <;> rfl
@[simp] theorem State.driveLatch_q (v : Bool) (s : State) : (s.driveLatch v).q = s.q := by
  unfold State.driveLatch; split <;> rfl
@[simp] theorem State.driveLatch_sr (v : Bool) (s : State) : (s.driveLatch v).sr = s.sr := by
  unfold State.driveLatch; split <;> rfl
@[simp] theorem State.driveLatch_out (v : Bool) (s : State) : (s.driveLatch v).out = if !s.latch && v then s.sr else s.out := by
  unfold State.driveLatch; split <;> rfl
@[simp] theorem State.driveLatch_rst (v : Bool) (s : State) : (s.driveLatch v).rst = s.rst := by
  unfold State.driveLatch; split <;> rfl
@[simp] theorem State.driveLatch_cfg (v : Bool) (s : State) : (s.driveLatch v).cfg = s.cfg := by
  unfold State.driveLatch; split <;> rfl
@[simp] theorem State.driveLatch_inputs (v : Bool) (s : State) : (s.driveLatch v).inputs = s.inputs := by
  unfold State.driveLatch; split <;> rfl
@[simp] theorem State.driveLatch_choices (v : Bool) (s : State) : (s.driveLatch v).choices = s.choices := by
  unfold State.driveLatch; split <;> rfl
@[simp] theorem State.driveLatch_trace (v : Bool) (s : State) : (s.driveLatch v).trace = if !s.latch && v then s.trace ++ [.latched s.sr] else s.trace := by
  unfold State.driveLatch; split <;> rfl
@[simp] theorem State.driveLatch_responses (v : Bool) (s : State) : (s.driveLatch v).responses = s.responses := by
  unfold State.driveLatch; split <;> rfl

/-! `resetLatch` -/
@[simp] theorem State.resetLatch_sec (s : State) : (s.resetLatch).sec = s.sec := by
  cases h : s.latch <;> simp [State.resetLatch, h]
@[simp] theorem State.resetLatch_min (s : State) : (s.resetLatch).min = s.min := by
  cases h : s.latch <;> simp [State.resetLatch, h]
@[simp] theorem State.resetLatch_latch (s : State) : (s.resetLatch).latch = true := by
  cases h : s.latch <;> simp [State.resetLatch, h]
@[simp] theorem State.resetLatch_sclk (s : State) : (s.resetLatch).sclk = s.sclk := by
  cases h : s.latch <;> simp [State.resetLatch, h]
@[simp] theorem State.resetLatch_sdata (s : State) : (s.resetLatch).sdata = s.sdata := by
  cases h : s.latch <;> simp [State.resetLatch, h]
@[simp] theorem State.resetLatch_q (s : State) : (s.resetLatch).q = s.q := by
  cases h : s.latch <;> simp [State.resetLatch, h]
@[simp] theorem State.resetLatch_sr (s : State) : (s.resetLatch).sr = s.sr := by
  cases h : s.latch <;> simp [State.resetLatch, h]
@[simp] theorem State.resetLatch_out (s : State) : (s.resetLatch).out = if s.latch then s.out else Config.outAfterReset s.choices s.sr := by
  cases h : s.latch <;> simp [State.resetLatch, h]
@[simp] theorem State.resetLatch_rst (s : State) : (s.resetLatch).rst = s.rst := by
  cases h : s.latch <;> simp [State.resetLatch, h]
@[simp] theorem State.resetLatch_cfg (s : State) : (s.resetLatch).cfg = s.cfg := by
  cases h : s.latch <;> simp [State.resetLatch, h]
@[simp] theorem State.resetLatch_inputs (s : State) : (s.resetLatch).inputs = s.inputs := by
  cases h : s.latch <;> simp [State.resetLatch, h]
@[simp] theorem State.resetLatch_choices (s : State) : (s.resetLatch).choices = if s.latch then s.choices else s.choices + 1 := by
  cases h : s.latch <;> simp [State.resetLatch, h]
@[simp] theorem State.resetLatch_trace (s : State) : (s.resetLatch).trace = if s.latch then s.trace else s.trace ++ [.latched (Config.outAfterReset s.choices s.sr)] := by
  cases h : s.latch <;> simp [State.resetLatch, h]
@[simp] theorem State.resetLatch_responses (s : State) : (s.resetLatch).responses = s.responses := by
  cases h : s.latch <;> simp [State.resetLatch, h]

/-! `assertReset` -/
@[simp] theorem State.assertReset_sec (s : State) : (s.assertReset).sec = 0 := by
  simp [State.assertReset]
@[simp] theorem State.assertReset_min (s : State) : (s.assertReset).min = 0 := by
  simp [State.assertReset]
@[simp] theorem State.assertReset_latch (s : State) : (s.assertReset).latch = true := by
  simp [State.assertReset]
@[simp] theorem State.assertReset_sclk (s : State) : (s.assertReset).sclk = false := by
  simp [State.assertReset]
@[simp] theorem State.assertReset_sdata (s : State) : (s.assertReset).sdata = false := by
  simp [State.assertReset]
@[simp] theorem State.assertReset_q (s : State) : (s.assertReset).q = [] := by
  simp [State.assertReset]
@[simp] theorem State.assertReset_sr (s : State) : (s.assertReset).sr = s.sr := by
  simp [State.assertReset]
@[simp] theorem State.assertReset_out (s : State) : (s.assertReset).out = if s.latch then s.out else Config.outAfterReset s.choices s.sr := by
  simp [State.assertReset]
@[simp] theorem State.assertReset_rst (s : State) : (s.assertReset).rst = true := by
  simp [State.assertReset]
@[simp] theorem State.assertReset_cfg (s : State) : (s.assertReset).cfg = s.cfg := by
  simp [State.assertReset]
@[simp] theorem State.assertReset_inputs (s : State) : (s.assertReset).inputs = s.inputs := by
  simp [State.assertReset]
@[simp] theorem State.assertReset_choices (s : State) : (s.assertReset).choices = if s.latch then s.choices else s.choices + 1 := by
  simp [State.assertReset]
@[simp] theorem State.assertReset_trace (s : State) : (s.assertReset).trace = if s.latch then s.trace else s.trace ++ [.latched (Config.outAfterReset s.choices s.sr)] := by
  simp [State.assertReset]
@[simp] theorem State.assertReset_responses (s : State) : (s.assertReset).responses = s.responses := by
  simp [State.assertReset]

/-! `tickClock` -/
@[simp] theorem State.tickClock_latch (s : State) : (s.tickClock).latch = s.latch := by
  unfold State.tickClock; split <;> rfl
@[simp] theorem State.tickClock_sclk (s : State) : (s.tickClock).sclk = s.sclk := by
  unfold State.tickClock; split <;> rfl
@[simp] theorem State.tickClock_sdata (s : State) : (s.tickClock).sdata = s.sdata := by
  unfold State.tickClock; split <;> rfl
@[simp] theorem State.tickClock_q (s : State) : (s.tickClock).q = s.q := by
  unfold State.tickClock; split <;> rfl
@[simp] theorem State.tickClock_sr (s : State) : (s.tickClock).sr = s.sr := by
  unfold State.tickClock; split <;> rfl
@[simp] theorem State.tickClock_out (s : State) : (s.tickClock).out = s.out := by
  unfold State.tickClock; split <;> rfl
@[simp] theorem State.tickClock_rst (s : State) : (s.tickClock).rst = s.rst := by
  unfold State.tickClock; split <;> rfl
@[simp] theorem State.tickClock_cfg (s : State) : (s.tickClock).cfg = s.cfg := by
  unfold State.tickClock; split <;> rfl
@[simp] theorem State.tickClock_inputs (s : State) : (s.tickClock).inputs = s.inputs := by
  unfold State.tickClock; split <;> rfl
@[simp] theorem State.tickClock_choices (s : State) : (s.tickClock).choices = s.choices := by
  unfold State.tickClock; split <;> rfl
@[simp] theorem State.tickClock_trace (s : State) : (s.tickClock).trace = s.trace ++ [.clockWrite s.tickClock.min s.tickClock.sec] := by
  unfold State.tickClock; split <;> rfl
@[simp] theorem State.tickClock_responses (s : State) : (s.tickClock).responses = s.responses := by
  unfold State.tickClock; split <;> rfl

/-! `perform`: a micro-operation writes the lines, the downstream register and the trace, and nothing else (R45, R67). -/
@[simp] theorem State.perform_sec (m : MicroOp) (s : State) : (s.perform m).sec = s.sec := by
  cases m <;> simp [State.perform, State.pinWrite]
@[simp] theorem State.perform_min (m : MicroOp) (s : State) : (s.perform m).min = s.min := by
  cases m <;> simp [State.perform, State.pinWrite]
@[simp] theorem State.perform_rst (m : MicroOp) (s : State) : (s.perform m).rst = s.rst := by
  cases m <;> simp [State.perform, State.pinWrite]
@[simp] theorem State.perform_cfg (m : MicroOp) (s : State) : (s.perform m).cfg = s.cfg := by
  cases m <;> simp [State.perform, State.pinWrite]
@[simp] theorem State.perform_inputs (m : MicroOp) (s : State) : (s.perform m).inputs = s.inputs := by
  cases m <;> simp [State.perform, State.pinWrite]
@[simp] theorem State.perform_choices (m : MicroOp) (s : State) : (s.perform m).choices = s.choices := by
  cases m <;> simp [State.perform, State.pinWrite]
@[simp] theorem State.perform_responses (m : MicroOp) (s : State) : (s.perform m).responses = s.responses := by
  cases m <;> simp [State.perform, State.pinWrite]
@[simp] theorem State.perform_q (m : MicroOp) (s : State) : (s.perform m).q = s.q := by
  cases m <;> simp [State.perform, State.pinWrite]

/-! `drain` -/
@[simp] theorem State.drain_sec (ops : List MicroOp) (s : State) : (s.drain ops).sec = s.sec := by
  induction ops generalizing s with
  | nil => rfl
  | cons m rest ih => exact (ih (s.perform m)).trans (State.perform_sec m s)
@[simp] theorem State.drain_min (ops : List MicroOp) (s : State) : (s.drain ops).min = s.min := by
  induction ops generalizing s with
  | nil => rfl
  | cons m rest ih => exact (ih (s.perform m)).trans (State.perform_min m s)
@[simp] theorem State.drain_rst (ops : List MicroOp) (s : State) : (s.drain ops).rst = s.rst := by
  induction ops generalizing s with
  | nil => rfl
  | cons m rest ih => exact (ih (s.perform m)).trans (State.perform_rst m s)
@[simp] theorem State.drain_cfg (ops : List MicroOp) (s : State) : (s.drain ops).cfg = s.cfg := by
  induction ops generalizing s with
  | nil => rfl
  | cons m rest ih => exact (ih (s.perform m)).trans (State.perform_cfg m s)
@[simp] theorem State.drain_inputs (ops : List MicroOp) (s : State) : (s.drain ops).inputs = s.inputs := by
  induction ops generalizing s with
  | nil => rfl
  | cons m rest ih => exact (ih (s.perform m)).trans (State.perform_inputs m s)
@[simp] theorem State.drain_choices (ops : List MicroOp) (s : State) : (s.drain ops).choices = s.choices := by
  induction ops generalizing s with
  | nil => rfl
  | cons m rest ih => exact (ih (s.perform m)).trans (State.perform_choices m s)
@[simp] theorem State.drain_responses (ops : List MicroOp) (s : State) : (s.drain ops).responses = s.responses := by
  induction ops generalizing s with
  | nil => rfl
  | cons m rest ih => exact (ih (s.perform m)).trans (State.perform_responses m s)
@[simp] theorem State.drain_q (ops : List MicroOp) (s : State) : (s.drain ops).q = s.q := by
  induction ops generalizing s with
  | nil => rfl
  | cons m rest ih => exact (ih (s.perform m)).trans (State.perform_q m s)

end Sys2Proof.Machine
end

