-- ==== Sys2Proof/Laws/Ops.lean ====
section
/-! SUPPORT. One lemma per shared operation that says everything it can do: offering a command, taking an event, the tick, the
sequencer step, draining a list of micro-operations. SEG7MUX has no memory, so there is no memory operation to keep a form (20 R35). -/

namespace Sys2Proof.Machine

/-! ### Readiness -/

theorem State.busy_eq_false_iff (s : State) : s.busy = false ↔ s.q = [] := by
  simp [State.busy]

theorem State.cmdReady_iff (s : State) : s.cmdReady = true ↔ s.q = [] ∧ s.rst = false := by
  simp [State.cmdReady, State.busy]

theorem check_eq_none_iff (i : Instr) : i.check = none ↔ i.wellFormed = true := by
  simp [Instr.wellFormed]

/-! ### Offering a command and taking an event -/

theorem offerCommand_accepts {i : Instr} {s : State} (f : State → State) (hr : s.cmdReady = true)
    (hw : i.wellFormed = true) : offerCommand i f s = .next (f s) := by
  obtain ⟨hq, hrst⟩ := (State.cmdReady_iff s).mp hr
  simp [offerCommand, hrst, (State.busy_eq_false_iff s).mpr hq, (check_eq_none_iff i).mpr hw]

theorem offerCommand_next {i : Instr} {f : State → State} {s t : State} (h : offerCommand i f s = .next t) :
    (s.rst = true ∧ t = s) ∨ (s.cmdReady = true ∧ i.wellFormed = true ∧ t = f s) := by
  unfold offerCommand at h
  split at h
  · next hr => exact .inl ⟨hr, by injection h with h; exact h.symm⟩
  · next hr =>
    split at h
    · cases h
    · next hb =>
      split at h
      · cases h
      · next hc =>
        refine .inr ⟨?_, (check_eq_none_iff i).mp hc, by injection h with h; exact h.symm⟩
        simp [State.cmdReady, hb, hr]

theorem offerCommand_not_fault {i : Instr} {f : State → State} {s : State} {e : Fault} :
    offerCommand i f s ≠ .fault e := by cases e

theorem takeEvent_next {f : State → State} {s t : State} (h : takeEvent f s = .next t) :
    (s.rst = true ∧ t = s) ∨ (s.rst = false ∧ t = f s) := by
  unfold takeEvent at h
  split at h
  · next hr => exact .inl ⟨hr, by injection h with h; exact h.symm⟩
  · next hr => exact .inr ⟨by simpa using hr, by injection h with h; exact h.symm⟩

/-! ### The tick -/

theorem State.tickClock_carry {s : State} (h : s.sec.val = 59) : s.tickClock = s.writeClock (nextMinute s.min) 0 := by
  simp [State.tickClock, h]

theorem State.tickClock_no_carry {s : State} (h : s.sec.val ≠ 59) :
    ∃ c : Fin secMod, c.val = s.sec.val + 1 ∧ s.tickClock = s.writeClock s.min c := by
  have hc : ¬ s.sec.val + 1 = secMod := by simp only [secMod]; omega
  exact ⟨⟨s.sec.val + 1, by have := s.sec.isLt; omega⟩, rfl, by simp only [State.tickClock, hc, dite_false]⟩

theorem State.tickClock_total (s : State) : s.tickClock.clockTotal = (s.clockTotal + 1) % 6000 := by
  have hm := s.min.isLt
  by_cases h : s.sec.val = 59
  · rw [State.tickClock_carry h]
    simp only [State.clockTotal, State.writeClock_min, State.writeClock_sec, nextMinute, secMod, minMod, Fin.val_zero] at *
    omega
  · obtain ⟨c, hc, ht⟩ := State.tickClock_no_carry h
    have := s.sec.isLt
    rw [ht]
    simp only [State.clockTotal, State.writeClock_min, State.writeClock_sec, hc, secMod, minMod] at *
    omega

/-! ### The sequencer -/

theorem State.sequencerStep_cons {s : State} {m : MicroOp} {rest : List MicroOp} (hr : s.rst = false)
    (hq : s.q = m :: rest) : s.sequencerStep = ({ s with q := rest } : State).perform m := by
  simp [State.sequencerStep, hr, hq]

theorem State.sequencerStep_idle {s : State} (hq : s.q = []) : s.sequencerStep = s := by
  simp [State.sequencerStep, hq]

theorem State.sequencerStep_reset {s : State} (hr : s.rst = true) : s.sequencerStep = s := by
  simp [State.sequencerStep, hr]

theorem State.sequencerStep_cases (s : State) :
    s.sequencerStep = s ∨
      ∃ m rest, s.rst = false ∧ s.q = m :: rest ∧ s.sequencerStep = ({ s with q := rest } : State).perform m := by
  cases hr : s.rst with
  | true => exact .inl (State.sequencerStep_reset hr)
  | false =>
    cases hq : s.q with
    | nil => exact .inl (State.sequencerStep_idle hq)
    | cons m rest => exact .inr ⟨m, rest, rfl, rfl, hr ▸ State.sequencerStep_cons hr hq⟩

@[simp] theorem State.drain_nil (s : State) : s.drain [] = s := rfl

@[simp] theorem State.drain_cons (m : MicroOp) (rest : List MicroOp) (s : State) :
    s.drain (m :: rest) = (s.perform m).drain rest := rfl

theorem State.drain_append (a b : List MicroOp) (s : State) : s.drain (a ++ b) = (s.drain a).drain b := by
  simp [State.drain, List.foldl_append]

theorem State.perform_setQ (m : MicroOp) (q : List MicroOp) (s : State) :
    ({ s with q := q } : State).perform m = { s.perform m with q := q } := by
  cases m with
  | dat v => rfl
  | dwell p => rfl
  | clk v => cases h : s.sclk <;> cases v <;> simp [State.perform, State.pinWrite, State.driveSclk, State.emit, h]
  | lat v => cases h : s.latch <;> cases v <;> simp [State.perform, State.pinWrite, State.driveLatch, State.emit, h]

theorem State.drain_setQ (ops : List MicroOp) (q : List MicroOp) (s : State) :
    ({ s with q := q } : State).drain ops = { s.drain ops with q := q } := by
  induction ops generalizing s with
  | nil => rfl
  | cons m rest ih => simp only [State.drain_cons, State.perform_setQ, ih]

/-- What the sequencer has still to do is the same before and after one of its steps. -/
theorem State.finish_sequencerStep (s : State) : s.sequencerStep.finish = s.finish := by
  obtain h | ⟨m, rest, -, hq, h⟩ := State.sequencerStep_cases s
  · rw [h]
  · simp only [h, State.finish, State.perform_setQ, hq, State.drain_cons, State.drain_setQ]

end Sys2Proof.Machine
end

