-- ==== Sys2Proof/Laws/Driver.lean ====
section
/-! SUPPORT. What performing an expansion does: one bit, one byte, one frame (40 R67 to R71), and the lengths of the expansions. -/

namespace Sys2Proof.Machine

/-! ### The shift stage -/

theorem shiftIn_getLsbD (sr : Frame) (b : Bool) (i : Nat) :
    (shiftIn sr b).getLsbD i = if i = 0 then b else (decide (i < 16) && sr.getLsbD (i - 1)) := by
  unfold shiftIn
  rw [BitVec.getLsbD_concat]
  by_cases h : i = 0
  · simp [h]
  · simp only [h, if_false, BitVec.getLsbD_setWidth]
    congr 1
    exact decide_eq_decide.mpr (by omega)

/-- Eight bits shifted in, most significant first, leave the byte in SR[7:0] and the old low byte in SR[15:8] (R36, R73). -/
theorem shiftIn_byte (sr : Frame) (b : Byte) :
    msbFirst.foldl (fun r i => shiftIn r (b.getLsbD i)) sr = frameWord (digitSelectOf sr) b := by
  apply BitVec.eq_of_getLsbD_eq
  intro i hi
  simp only [msbFirst_eq, byteBits, List.foldl_cons, List.foldl_nil, shiftIn_getLsbD, frameWord, digitSelectOf, BitVec.getLsbD_append,
    BitVec.getLsbD_extractLsb']
  interval_cases i <;> simp

/-! ### One bit, one byte, one frame -/

theorem drain_bitSeq (v : Bool) {s : State} (h : s.sclk = false) :
    s.drain (bitSeq v) =
      { s with sdata := v, sr := shiftIn s.sr v, trace := s.trace ++ bitEvents v } := by
  ext <;>
    simp [bitSeq, bitEvents, State.perform, State.pinWrite, State.driveSclk, State.emit, h]

theorem drain_bits (b : Byte) (l : List Nat) {s : State} (h : s.sclk = false) :
    s.drain (l.flatMap fun i => bitSeq (b.getLsbD i)) =
      { s with
        sdata := l.foldl (fun _ i => b.getLsbD i) s.sdata
        sr := l.foldl (fun r i => shiftIn r (b.getLsbD i)) s.sr
        trace := s.trace ++ l.flatMap fun i => bitEvents (b.getLsbD i) } := by
  induction l generalizing s with
  | nil => simp
  | cons i l ih =>
    rw [List.flatMap_cons, State.drain_append, drain_bitSeq _ h, ih]
    · simp
    · exact h

/-- ShiftSeq(b) from SCLK = 0 (R73). -/
theorem drain_shiftSeq (b : Byte) {s : State} (h : s.sclk = false) :
    s.drain (shiftSeq b) =
      { s with
        sdata := b.getLsbD 0
        sr := frameWord (digitSelectOf s.sr) b
        trace := s.trace ++ byteEvents b } := by
  rw [shiftSeq, drain_bits b msbFirst h, shiftIn_byte]
  rfl

theorem digitSelectOf_frameWord (x y : Byte) : digitSelectOf (frameWord x y) = y := by
  apply BitVec.eq_of_getLsbD_eq
  intro i hi
  simp only [frameWord, digitSelectOf, byteBits, BitVec.getLsbD_append, BitVec.getLsbD_extractLsb']
  interval_cases i <;> simp

theorem segmentsOf_frameWord (x y : Byte) : segmentsOf (frameWord x y) = x := by
  apply BitVec.eq_of_getLsbD_eq
  intro i hi
  simp only [frameWord, segmentsOf, byteBits, BitVec.getLsbD_append, BitVec.getLsbD_extractLsb']
  interval_cases i <;> simp

theorem perform_lat_false (s : State) :
    s.perform (.lat false) = { s with latch := false, trace := s.trace ++ [.pin .latch false] } := by
  ext <;> simp [State.perform, State.pinWrite]

theorem perform_lat_true {s : State} (h : s.latch = false) :
    s.perform (.lat true) =
      { s with latch := true, out := s.sr, trace := s.trace ++ [.pin .latch true, .latched s.sr] } := by
  ext <;> simp [State.perform, State.pinWrite, h]

/-- FrameSeq(s, d) from SCLK = 0 (R75). -/
theorem drain_frameSeq (x y : Byte) {s : State} (h : s.sclk = false) :
    s.drain (frameSeq x y) =
      { s with
        latch := true
        sdata := y.getLsbD 0
        sr := frameWord x y
        out := frameWord x y
        trace := s.trace ++ frameEvents x y } := by
  have h1 : ({ s with latch := false, trace := s.trace ++ [.pin .latch false] } : State).sclk = false := h
  simp only [frameSeq_eq, State.drain_append, State.drain_cons, State.drain_nil, perform_lat_false]
  rw [drain_shiftSeq x h1, drain_shiftSeq y, perform_lat_true]
  · simp [digitSelectOf_frameWord, frameEvents]
  · rfl
  · exact h

/-! ### Lengths (R71, R142) -/

theorem shiftSeq_length (b : Byte) : (shiftSeq b).length = 24 := rfl

theorem frameSeq_length (x y : Byte) : (frameSeq x y).length = 50 := rfl

theorem renderSeq_length (c : Config) (n : BitVec 16) (sd : Bool) (dpf : BitVec 3) :
    (renderSeq c n sd dpf).length = 204 := by
  simp [renderSeq, positions_eq, frameSeq_length]

end Sys2Proof.Machine
end

