-- ==== Sys2Proof/Laws/Step.lean ====
section
/-! SUPPORT. What one instruction and one step can do, said once: the inversion lemmas every invariant is derived from. -/

namespace Sys2Proof.Machine

/-! ### Each instruction -/

theorem exec_shiftout_accepts (b : Byte) {s : State} (h : s.cmdReady = true) :
    exec (.shiftout b) s = .next (s.load (shiftSeq b)) :=
  offerCommand_accepts (i := .shiftout b) (State.load (shiftSeq b)) h rfl

theorem exec_writeframe_accepts {x d : Byte} {s : State} (h : s.cmdReady = true) (hd : frameOneHot d = true) :
    exec (.writeframe x d) s = .next (s.load (frameSeq x d)) :=
  offerCommand_accepts (i := .writeframe x d) (State.load (frameSeq x d)) h
    (by simp [Instr.wellFormed, Instr.check, hd])

theorem exec_render_accepts {n : BitVec 16} {sd : Bool} {dpf : BitVec 3} {s : State} (h : s.cmdReady = true)
    (hd : dpInDomain dpf = true) : exec (.render n sd dpf) s = .next (s.load (renderSeq s.cfg n sd dpf)) :=
  offerCommand_accepts (i := .render n sd dpf) (State.load (renderSeq s.cfg n sd dpf)) h
    (by simp [Instr.wellFormed, Instr.check, hd])

theorem exec_clkrst_accepts {s : State} (h : s.cmdReady = true) : exec .clkrst s = .next (s.writeClock 0 0) :=
  offerCommand_accepts (i := .clkrst) (State.writeClock 0 0) h rfl

theorem exec_rdclk_accepts {s : State} (h : s.cmdReady = true) : exec .rdclk s = .next s.readClock :=
  offerCommand_accepts (i := .rdclk) State.readClock h rfl

theorem exec_tick_out_of_reset {s : State} (h : s.rst = false) : exec .tick s = .next s.tickClock := by
  simp [exec, execTick, takeEvent, h]

/-- Everything an instruction can do when it answers a next state: nothing, under RST; load Q, when ready; or one clock operation. -/
theorem exec_cases {i : Instr} {s t : State} (h : exec i s = .next t) :
    (s.rst = true ∧ t = s) ∨
    (s.cmdReady = true ∧ i.wellFormed = true ∧
      (t = s.load (expand s.cfg i) ∨ t = s.writeClock 0 0 ∨ t = s.readClock)) ∨
    (s.rst = false ∧ t = s.tickClock) := by
  cases i with
  | shiftout b =>
    obtain h | ⟨hr, hw, ht⟩ := offerCommand_next (i := (.shiftout b)) h
    · exact .inl h
    · exact .inr (.inl ⟨hr, hw, .inl ht⟩)
  | writeframe x d =>
    obtain h | ⟨hr, hw, ht⟩ := offerCommand_next (i := (.writeframe x d)) h
    · exact .inl h
    · exact .inr (.inl ⟨hr, hw, .inl ht⟩)
  | render n sd dpf =>
    obtain h | ⟨hr, hw, ht⟩ := offerCommand_next (i := (.render n sd dpf)) h
    · exact .inl h
    · exact .inr (.inl ⟨hr, hw, .inl ht⟩)
  | clkrst =>
    obtain h | ⟨hr, hw, ht⟩ := offerCommand_next (i := .clkrst) h
    · exact .inl h
    · exact .inr (.inl ⟨hr, hw, .inr (.inl ht)⟩)
  | rdclk =>
    obtain h | ⟨hr, hw, ht⟩ := offerCommand_next (i := .rdclk) h
    · exact .inl h
    · exact .inr (.inl ⟨hr, hw, .inr (.inr ht)⟩)
  | tick =>
    obtain h | h := takeEvent_next h
    · exact .inl h
    · exact .inr (.inr h)

/-! ### Each input -/

theorem presentTick_one (s : State) : presentTick 1#1 s = exec .tick s := rfl

theorem presentCommand_next {w : CommandWord} {s t : State} (h : presentCommand w s = .next t) :
    (s.rst = true ∧ t = s) ∨ ∃ i, decodeCommand w = .ok i ∧ exec i s = .next t := by
  unfold presentCommand at h
  split at h
  · next hr => exact .inl ⟨hr, by injection h with h; exact h.symm⟩
  · split at h
    · cases h
    · split at h
      · next i hi => exact .inr ⟨i, hi, h⟩
      · cases h

/-- One move of one agent, on a state whose inputs have been settled; `mayReset` says whether RST can be what moves. -/
inductive Moves (mayReset : Prop) : State → State → Prop where
  | still (s : State) : Moves mayReset s s
  | sequencer (s : State) : Moves mayReset s s.sequencerStep
  | exec {i : Instr} {s t : State} (h : Sys2Proof.Machine.exec i s = .next t) : Moves mayReset s t
  | assertReset (s : State) (h : mayReset) : Moves mayReset s s.assertReset
  | releaseReset (s : State) : Moves mayReset s s.releaseReset

theorem presentCommand_moves {r : Prop} {w : CommandWord} {s t : State} (h : presentCommand w s = .next t) :
    Moves r s t := by
  obtain ⟨-, rfl⟩ | ⟨i, -, h⟩ := presentCommand_next h
  · exact .still _
  · exact .exec h

/-- Everything a step can do: it settles the inputs (taking one off, or ordering a coincidence), and one agent moves. -/
theorem step_moves {s t : State} (h : step s = .next t) :
    ∃ l c, (∀ y ∈ l, y ∈ s.inputs ∨ y = .tick ∨ ∃ w, y = .command w) ∧
      Moves (Input.assertReset ∈ s.inputs) { s with inputs := l, choices := c } t := by
  unfold step at h
  split at h
  · next hi =>
    injection h with h
    exact ⟨s.inputs, s.choices, fun y hy => .inl hy, h ▸ .sequencer _⟩
  · next x rest hi =>
    have hmem : ∀ y ∈ rest, y ∈ s.inputs := fun y hy => hi ▸ List.mem_cons_of_mem _ hy
    have hrest : ∀ y ∈ rest, y ∈ s.inputs ∨ y = .tick ∨ ∃ w, y = .command w := fun y hy => .inl (hmem y hy)
    cases x with
    | command w => exact ⟨rest, s.choices, hrest, presentCommand_moves h⟩
    | tick => exact ⟨rest, s.choices, hrest, .exec (i := .tick) h⟩
    | sequencer => injection h with h; exact ⟨rest, s.choices, hrest, h ▸ .sequencer _⟩
    | assertReset =>
      injection h with h
      exact ⟨rest, s.choices, hrest, h ▸ .assertReset _ (hi ▸ List.mem_cons_self)⟩
    | releaseReset => injection h with h; exact ⟨rest, s.choices, hrest, h ▸ .releaseReset _⟩
    | commandAndTick w =>
      simp only [runInput, presentBoth] at h
      split at h
      · refine ⟨.command w :: rest, s.choices + 1, ?_, .exec (i := .tick) h⟩
        intro y hy
        obtain rfl | hy := List.mem_cons.mp hy
        · exact .inr (.inr ⟨w, rfl⟩)
        · exact hrest y hy
      · refine ⟨.tick :: rest, s.choices + 1, ?_, presentCommand_moves h⟩
        intro y hy
        obtain rfl | hy := List.mem_cons.mp hy
        · exact .inr (.inl rfl)
        · exact hrest y hy

/-! ### Runs of the sequencer alone -/

theorem step_no_inputs {s : State} (h : s.inputs = []) : step s = .next s.sequencerStep := by
  simp [step, h]

theorem run_succ {k : Nat} {s t : State} (h : step s = .next t) :
    Host.Core.run Sys2Proof.core (k + 1) s = Host.Core.run Sys2Proof.core k t := by
  have hs : Sys2Proof.core.step s = .next t := h
  simp only [Host.Core.run, hs]

/-- With no input left and RST released, k steps perform the first k micro-operations of Q. -/
theorem run_drain {k : Nat} {s : State} (hi : s.inputs = []) (hr : s.rst = false) (hk : k ≤ s.q.length) :
    Host.Core.run Sys2Proof.core k s = .next (({ s with q := s.q.drop k } : State).drain (s.q.take k)) := by
  induction k generalizing s with
  | zero => rfl
  | succ k ih =>
    cases hq : s.q with
    | nil => simp [hq] at hk
    | cons m rest =>
      rw [run_succ (step_no_inputs hi), State.sequencerStep_cons hr hq]
      have hl : k ≤ rest.length := by simpa [hq] using hk
      rw [ih (by simpa using hi) (by simpa using hr) (by simpa using hl)]
      simp only [List.take_succ_cons, List.drop_succ_cons, State.drain_cons, State.perform_setQ]

end Sys2Proof.Machine
end

