-- ==== Sys2Proof/Laws/Decode.lean ====
section
/-! SUPPORT. The decoder and the operand checks in terms of the word as a number, so that later proofs need no bit-field reasoning. -/

namespace Sys2Proof

theorem opcodeOf_eq_iff (w : CommandWord) (c : Nat) (hc : c < 16) : opcodeOf w = BitVec.ofNat 4 c ↔ w.toNat / 2 ^ 20 = c := by
  have hw := Machine.commandWord_lt w
  rw [← BitVec.toNat_inj]
  simp only [opcodeOf, BitVec.extractLsb'_toNat, BitVec.toNat_ofNat, Nat.shiftRight_eq_div_pow]
  omega

theorem field_eq_zero_iff (w : CommandWord) (lo len : Nat) :
    w.extractLsb' lo len = 0#len ↔ w.toNat / 2 ^ lo % 2 ^ len = 0 := by
  rw [← BitVec.toNat_inj]
  simp [BitVec.extractLsb'_toNat, Nat.shiftRight_eq_div_pow]

/-- The opcode map of R60 on the number of the word. -/
theorem decodeCommand_eq (w : CommandWord) : decodeCommand w =
    if w.toNat / 2 ^ 20 = 1 then
      if w.toNat / 2 ^ 8 % 2 ^ 12 = 0 then .ok (.shiftout (w.extractLsb' 0 8)) else .error .zeroBits
    else if w.toNat / 2 ^ 20 = 2 then
      if w.toNat / 2 ^ 16 % 2 ^ 4 = 0 then .ok (.writeframe (w.extractLsb' 8 8) (w.extractLsb' 0 8))
      else .error .zeroBits
    else if w.toNat / 2 ^ 20 = 3 then
      .ok (.render (w.extractLsb' 0 16) (w.getLsbD 19) (w.extractLsb' 16 3))
    else if w.toNat / 2 ^ 20 = 4 then
      if w.toNat / 2 ^ 0 % 2 ^ 20 = 0 then .ok .clkrst else .error .zeroBits
    else if w.toNat / 2 ^ 20 = 5 then
      if w.toNat / 2 ^ 0 % 2 ^ 20 = 0 then .ok .rdclk else .error .zeroBits
    else .error .opcodeKnown := by
  unfold decodeCommand
  simp only [opcodeOf_eq_iff w 1 (by decide), opcodeOf_eq_iff w 2 (by decide), opcodeOf_eq_iff w 3 (by decide),
    opcodeOf_eq_iff w 4 (by decide), opcodeOf_eq_iff w 5 (by decide), field_eq_zero_iff]

theorem dpInDomain_iff (dpf : BitVec 3) : Machine.dpInDomain dpf = true ↔ dpf.toNat ≤ 3 ∨ dpf.toNat = 7 := by
  revert dpf; decide

theorem frameOneHot_iff (d : Byte) : Machine.frameOneHot d = true ↔ d.toNat ∈ [1, 2, 4, 8] := by
  revert d; decide

theorem dpField_toNat (w : CommandWord) : (w.extractLsb' 16 3).toNat = w.toNat / 2 ^ 16 % 2 ^ 3 := by
  simp [BitVec.extractLsb'_toNat, Nat.shiftRight_eq_div_pow]

theorem selectField_toNat (w : CommandWord) : (w.extractLsb' 0 8).toNat = w.toNat % 2 ^ 8 := by
  simp [BitVec.extractLsb'_toNat]

/-- No command word is a tick (R54). -/
theorem decodeCommand_ne_tick (w : CommandWord) : decodeCommand w ≠ .ok .tick := by
  unfold decodeCommand
  split_ifs <;> simp

/-- Decoding a port that carries a command word succeeds exactly as decoding the word does. -/
theorem decode_command_iff (w : CommandWord) (i : Instr) : decode (.command w) = .ok i ↔ decodeCommand w = .ok i := by
  simp only [decode]
  cases decodeCommand w <;> simp [Except.mapError]

end Sys2Proof
end

