-- ==== Sys2Proof/Laws/PerInstr.lean ====
section
/-! SUPPORT. The family TableRow: the word the encoder gives each instruction lies in that instruction's row of spec/opcode_table.json
(the match and mask columns of 30_encoding R60), one lemma per constructor. -/

namespace Sys2Proof.Laws.TableRow

/-- The match and mask of an instruction's row (R60); `TICK` is not in that map (R54). -/
def rowOf : Instr → Option (CommandWord × CommandWord)
  | .shiftout _ => some (0x100000#24, 0xFFFF00#24)
  | .writeframe _ _ => some (0x200000#24, 0xFF0000#24)
  | .render _ _ _ => some (0x300000#24, 0xF00000#24)
  | .clkrst => some (0x400000#24, 0xFFFFFF#24)
  | .rdclk => some (0x500000#24, 0xFFFFFF#24)
  | .tick => none

/-- A port word lies in a row: a command word under its match and mask, the tick line at 1. -/
def inRow : PortWord → Option (CommandWord × CommandWord) → Prop
  | .command w, some r => w &&& r.2 = r.1
  | .command _, none => False
  | .tickIn v, r => r = none ∧ v = 1#1

/-- The encoded instruction lies in its row. -/
def Statement (i : Instr) : Prop := inRow (encode i) (rowOf i)

theorem shiftout (b : Byte) : Statement (.shiftout b) := by
  apply BitVec.eq_of_getLsbD_eq
  intro k hk
  simp only [Machine.byteBits, BitVec.getLsbD_and, BitVec.getLsbD_append]
  interval_cases k <;> simp

theorem writeframe (s d : Byte) : Statement (.writeframe s d) := by
  apply BitVec.eq_of_getLsbD_eq
  intro k hk
  simp only [Machine.byteBits, BitVec.getLsbD_and, BitVec.getLsbD_append]
  interval_cases k <;> simp

theorem render (n : BitVec 16) (sd : Bool) (dpf : BitVec 3) : Statement (.render n sd dpf) := by
  apply BitVec.eq_of_getLsbD_eq
  intro k hk
  simp only [BitVec.getLsbD_and, BitVec.getLsbD_append]
  interval_cases k <;> simp

theorem clkrst : Statement .clkrst := rfl

theorem rdclk : Statement .rdclk := rfl

theorem tick : Statement .tick := ⟨rfl, rfl⟩

end Sys2Proof.Laws.TableRow
end

