-- ==== Sys2Proof/Tests/Slice0.lean ====
section
/-! SUPPORT. Tests whose expected results stand in the spec (95_test_vectors and the rules' own worked examples), and for every statement
that has hypotheses a concrete state and operands that meet all of them together. -/

namespace Sys2Proof.Tests

open Sys2Proof Sys2Proof.Machine

/-! ## Helpers -/

/-- An idle state out of reset with values in SR and OUT: after 95_test_vectors V3 and P1. -/
def idle : State := { State.reset with sr := 0xA53C#16, out := 0x9908#16 }

/-- An idle state with the clock at MIN = m, SEC = c. -/
def clockAt (m : Fin 100) (c : Fin 60) : State := { idle with min := m, sec := c }

/-- A state with a command in progress. -/
def busyWith (q : List MicroOp) : State := { idle with q := q }

/-- What f gives of the next state, if there is one. -/
def seen {α : Type} (f : State → α) : Host.Outcome State Fault Refusal → Option α
  | .next s => some (f s)
  | .fault _ => none
  | .refused _ => none

/-- The refusal, if the outcome is one. -/
def refusal : Host.Outcome State Fault Refusal → Option Refusal
  | .next _ => none
  | .fault _ => none
  | .refused r => some r

/-- The step that presents a command word to a state. -/
def present (s : State) (w : CommandWord) : Host.Outcome State Fault Refusal := step { s with inputs := [.command w] }

/-! ## Parameters: the table of R5 -/

theorem test_parameters : (ndigits, byteBits, frameBytes, digitMod, secMod, minMod, mmssScale, lutSize, litLevel) =
    (4, 8, 2, 10000, 60, 100, 100, 10, false) ∧ positions.map dsel = [0x01#8, 0x02#8, 0x04#8, 0x08#8] := ⟨rfl, rfl⟩

/-! ## WellFormed: an ill-formed term for each check (R61) -/

theorem test_wellFormed_refuses_two_select_bits : (Instr.writeframe 0xA4#8 0x03#8).check = some .frameOneHot := by decide

theorem test_wellFormed_refuses_no_select_bit : (Instr.writeframe 0xA4#8 0x00#8).check = some .frameOneHot := by decide

theorem test_wellFormed_refuses_fifth_digit : (Instr.writeframe 0xA4#8 0x10#8).check = some .frameOneHot := by decide

theorem test_wellFormed_refuses_dp_minus_four : (Instr.render 245#16 true 0b100#3).check = some .dpInDomain := by decide

theorem test_wellFormed_takes_dp_minus_one : (Instr.render 245#16 true 0b111#3).wellFormed = true := by decide

theorem test_wellFormed_takes_last_select : (Instr.writeframe 0x7F#8 0x08#8).wellFormed = true := by decide

/-! ## Decode: words written out from R50 to R54, the opcode, the zero field and the operands in order (V1) -/

theorem test_decode_shiftout : decode (.command 0b0001_000000000000_10100101#24) = .ok (.shiftout 0xA5#8) := by rfl

theorem test_decode_writeframe :
    decode (.command 0b0010_0000_10100100_00000010#24) = .ok (.writeframe 0xA4#8 0x02#8) := by rfl

theorem test_decode_render :
    decode (.command 0b0011_1_001_0000000011110101#24) = .ok (.render 245#16 true 0b001#3) := by rfl

theorem test_decode_render_no_point :
    decode (.command 0b0011_0_111_0000010011010010#24) = .ok (.render 1234#16 false 0b111#3) := by rfl

theorem test_decode_clkrst : decode (.command 0b0100_00000000000000000000#24) = .ok .clkrst := by rfl

theorem test_decode_rdclk : decode (.command 0b0101_00000000000000000000#24) = .ok .rdclk := by rfl

theorem test_decode_tick : decode (.tickIn 0b1#1) = .ok .tick ∧ decode (.tickIn 0b0#1) = .error .noEvent := by
  exact ⟨rfl, rfl⟩

theorem test_decode_refuses : decodeCommand 0x000000#24 = .error .opcodeKnown ∧
    decodeCommand 0x600000#24 = .error .opcodeKnown ∧ decodeCommand 0xF00000#24 = .error .opcodeKnown ∧
    decodeCommand 0x1001A5#24 = .error .zeroBits ∧ decodeCommand 0x21A402#24 = .error .zeroBits ∧
    decodeCommand 0x400001#24 = .error .zeroBits ∧ decodeCommand 0x500100#24 = .error .zeroBits := by
  exact ⟨rfl, rfl, rfl, rfl, rfl, rfl, rfl⟩

theorem test_decodeTableWord : decodeTableWord 24 0x1000A5 = some (.shiftout 0xA5#8) ∧
    decodeTableWord 24 0x300000 = some (.render 0#16 false 0#3) ∧ decodeTableWord 8 1 = some .tick ∧
    decodeTableWord 8 0 = none ∧ decodeTableWord 24 0x600000 = none := by
  exact ⟨rfl, rfl, rfl, rfl, rfl⟩

/-! ## The command port (V2) -/

theorem test_port_refuses : refusal (present idle 0x600000#24) = some .opcodeKnown ∧
    refusal (present idle 0x1001A5#24) = some .zeroBits ∧ refusal (present idle 0x3C00F5#24) = some .dpInDomain ∧
    refusal (present idle 0x20A403#24) = some .frameOneHot := by decide

theorem test_port_idle_first : refusal (present (busyWith [.clk false]) 0x400000#24) = some .idle ∧
    refusal (present (busyWith [.clk false]) 0x600000#24) = some .idle := by decide

theorem test_first_instruction_after_reset :
    seen State.busy (step (State.reset.withFetchWord 24 0x100000)) = some true ∧
    seen (fun s => s.sec.val) (step (State.reset.withFetchWord 8 1)) = some 1 := by exact ⟨rfl, rfl⟩

/-! ## The instructions -/

/-- V3: the wire bits of 0xA5. -/
theorem test_shiftout_bits : (shiftSeq 0xA5#8).filterMap (fun m => match m with | .dat v => some v | _ => none) =
    [true, false, true, false, false, true, false, true] := by decide

/-- V3: from SR = 0xA53C, `SHIFTOUT 0x00` gives SR = 0x3C00 and leaves OUT. -/
theorem test_shiftout_sr : (idle.drain (shiftSeq 0x00#8)).sr = 0x3C00#16 ∧ (idle.drain (shiftSeq 0x00#8)).out = 0x9908#16 := by
  decide

/-- V4: the worked stream of `WRITEFRAME 0xA4, 0x02`, and OUT at its end. -/
theorem test_writeframe_bits :
    (frameSeq 0xA4#8 0x02#8).filterMap (fun m => match m with | .dat v => some v | _ => none) =
    [true, false, true, false, false, true, false, false, false, false, false, false, false, false, true, false] := by
  decide

theorem test_writeframe_out : (idle.drain (frameSeq 0xA4#8 0x02#8)).out = 0xA402#16 := by
  rw [drain_frameSeq _ _ rfl]
  rfl

/-- V5: the frames of `RENDER 245, 1, 1` with the default table. -/
theorem test_render_point : positions.map (renderFrame defaultConfig 245#16 true 0b001#3) =
    [0xC001#16, 0x2402#16, 0x9904#16, 0x9208#16] := by decide

/-- V5: the frames of `RENDER 65535, 0, -1`: truncated to 5535. -/
theorem test_render_truncates : positions.map (renderFrame defaultConfig 65535#16 false 0b111#3) =
    [0x9201#16, 0x9202#16, 0xB004#16, 0x9208#16] := by decide

/-- V6: (SEC, MIN) = (59, 3) goes to (0, 4), the worked example of R90. -/
theorem test_tick_carry : seen (fun s => (s.sec.val, s.min.val)) (exec .tick (clockAt 3 59)) = some (0, 4) := by decide

/-- V6: (SEC, MIN) = (59, 99) goes to (0, 0). -/
theorem test_tick_wrap : seen (fun s => (s.sec.val, s.min.val)) (exec .tick (clockAt 99 59)) = some (0, 0) := by decide

/-- V7: (SEC, MIN) = (17, 42) under `CLKRST`. -/
theorem test_clkrst : seen (fun s => (s.sec.val, s.min.val)) (exec .clkrst (clockAt 42 17)) = some (0, 0) := by decide

/-- V7: `RDCLK` at (SEC, MIN) = (7, 3) presents 0x31C133. -/
theorem test_rdclk : seen State.responses (exec .rdclk (clockAt 3 7)) = some [0x31C133#27] := by decide

/-- V7: the largest response. -/
theorem test_rdclk_max : seen State.responses (exec .rdclk (clockAt 99 59)) = some [0x63EE6E7#27] := by decide

/-- V4: what two frames show, the point alone being no numeral. -/
theorem test_display : display defaultConfig 0xA402#16 =
      some { position := 1, lit := [.a, .b, .d, .e, .g], point := false, numeral := some 2 } ∧
    (display defaultConfig 0x7F08#16).map (fun v => (v.lit, v.point, v.numeral)) = some ([], true, none) := by decide

/-- V8: `RENDER 1234, 0, -1` with a tick falling in it: the minute and second run on, Q goes on. -/
theorem test_tick_inside_a_command :
    seen (fun s => (s.sec.val, s.q.length)) (exec .tick (busyWith (shiftSeq 0xA5#8))) = some (1, 24) := by decide

/-! ## Witnesses -/

/-- Ten sequencer steps, a tick, and the rest of n steps. -/
def mixed (n : Nat) : List Input := List.replicate 10 .sequencer ++ .tick :: List.replicate (n - 10) .sequencer

theorem mixed_ticksAndTurns (n : Nat) : TicksAndTurns (mixed n) := by
  intro x hx
  simp only [mixed, List.mem_append, List.mem_cons, List.mem_replicate] at hx
  tauto

theorem mixed_turns {n : Nat} (h : 10 ≤ n) : turns (mixed n) = n := by
  simp [turns, mixed]
  omega

theorem witness_EncodeDecodeAgree : decode (.command 0x3B22B8#24) = .ok (.render 8888#16 true 0b011#3) ∧
    decode (.tickIn 1#1) = .ok .tick := ⟨rfl, rfl⟩

theorem witness_OperandFieldsOfWords : decodeCommand 0x1000FF#24 = .ok (.shiftout 0xFF#8) ∧
    decodeCommand 0x20FF08#24 = .ok (.writeframe 0xFF#8 0x08#8) ∧
    decodeCommand 0x3FFFFF#24 = .ok (.render 0xFFFF#16 true 0b111#3) := ⟨rfl, rfl, rfl⟩

theorem witness_DecimalPositionPatterns : (3#3).toNat ≤ 3 ∧ (7#3).toNat = 7 ∧
    (4 ≤ (4#3).toNat ∧ (4#3).toNat ≤ 6) ∧ 4 ≤ (6#3).toNat ∧ (6#3).toNat ≤ 6 := by decide

theorem witness_RefusalsInOrder_state :
    ({ idle with inputs := [.command 0x400000#24] } : State).inputs = .command 0x400000#24 :: [] ∧
    idle.rst = false ∧ idle.busy = false ∧ (busyWith [.clk true]).busy = true ∧ (busyWith [.clk true]).rst = false := by
  decide

/-- A word at each end of each clause's range. -/
theorem witness_RefusalsInOrder_words :
    (0x0FFFFF#24).toNat / 2 ^ 20 = 0 ∧ 6 ≤ (0x600000#24).toNat / 2 ^ 20 ∧ 6 ≤ (0xFFFFFF#24).toNat / 2 ^ 20 ∧
    ((0x1FFF00#24).toNat / 2 ^ 20 = 1 ∧ (0x1FFF00#24).toNat / 2 ^ 8 % 2 ^ 12 ≠ 0) ∧
    ((0x210001#24).toNat / 2 ^ 20 = 2 ∧ (0x210001#24).toNat / 2 ^ 16 % 2 ^ 4 ≠ 0) ∧
    ((0x400001#24).toNat / 2 ^ 20 = 4 ∧ (0x400001#24).toNat % 2 ^ 20 ≠ 0) ∧
    ((0x580000#24).toNat / 2 ^ 20 = 5 ∧ (0x580000#24).toNat % 2 ^ 20 ≠ 0) ∧
    ((0x340000#24).toNat / 2 ^ 20 = 3 ∧ (0x340000#24).toNat / 2 ^ 16 % 2 ^ 3 = 4) ∧
    ((0x3EFFFF#24).toNat / 2 ^ 20 = 3 ∧ (0x3EFFFF#24).toNat / 2 ^ 16 % 2 ^ 3 = 6) ∧
    ((0x20A403#24).toNat / 2 ^ 16 = 0x20 ∧ (0x20A403#24).toNat % 2 ^ 8 ∉ [1, 2, 4, 8]) := by decide

theorem witness_RefusalsInOrder_accepted :
    (0x1000FF#24).toNat / 2 ^ 8 = 0x1000 ∧
    ((0x20A408#24).toNat / 2 ^ 16 = 0x20 ∧ (0x20A408#24).toNat % 2 ^ 8 ∈ [1, 2, 4, 8]) ∧
    ((0x33FFFF#24).toNat / 2 ^ 20 = 3 ∧ (0x33FFFF#24).toNat / 2 ^ 16 % 2 ^ 3 ≤ 3) ∧
    ((0x370000#24).toNat / 2 ^ 20 = 3 ∧ (0x370000#24).toNat / 2 ^ 16 % 2 ^ 3 = 7) ∧
    (0x400000#24).toNat = 0x400000 ∧ (0x500000#24).toNat = 0x500000 := by decide

theorem witness_StepRunsDecodedInstruction :
    ({ idle with inputs := [.command 0x1000A5#24] } : State).inputs = .command 0x1000A5#24 :: [] ∧
    decode (.command 0x1000A5#24) = .ok (.shiftout 0xA5#8) ∧
    ({ idle with inputs := [.tick, .sequencer] } : State).inputs = .tick :: [.sequencer] := ⟨rfl, rfl, rfl⟩

/-- Ready, for every statement about accepting a command, with an operand that each statement's own premise asks for. -/
theorem witness_accepted : idle.cmdReady = true ∧ idle.rst = false ∧
    (Instr.writeframe 0xA4#8 0x02#8).wellFormed = true ∧ 0x08#8 ∈ [0x01#8, 0x02#8, 0x04#8, 0x08#8] ∧
    decimalPosition 0b111#3 ∈ ([-1, 0, 1, 2, 3] : List Int) ∧ decimalPosition 0b011#3 ∈ ([-1, 0, 1, 2, 3] : List Int) := by
  decide

theorem witness_BusyFollowsCommands : idle.rst = false ∧ (busyWith (shiftSeq 0xA5#8)).rst = false ∧
    (∃ t, exec (.shiftout 0xA5#8) idle = .next t) ∧ (∃ t, exec .clkrst idle = .next t) ∧
    (∃ t, exec .tick (busyWith (shiftSeq 0xA5#8)) = .next t) :=
  ⟨rfl, rfl, ⟨_, rfl⟩, ⟨_, rfl⟩, ⟨_, rfl⟩⟩

theorem witness_SequencerPerformsHead :
    (busyWith [.clk true, .clk false]).rst = false ∧ (busyWith [.clk true, .clk false]).q = .clk true :: [.clk false] ∧
    (busyWith [.clk true, .clk false]).inputs = [] ∧
    ({ busyWith [.clk true, .clk false] with inputs := [.sequencer, .tick] } : State).inputs = .sequencer :: [.tick] :=
  ⟨rfl, rfl, rfl, rfl⟩

theorem witness_ShiftoutNetEffect : idle.cmdReady = true ∧ idle.sclk = false ∧ TicksAndTurns (mixed 24) ∧
    turns (mixed 24) = 24 := ⟨rfl, rfl, mixed_ticksAndTurns 24, mixed_turns (by decide)⟩

theorem witness_WriteframeNetEffect : idle.cmdReady = true ∧ idle.restLevels ∧ frameOneHot 0x02#8 = true ∧
    (∀ k, TicksAndTurns (mixed k)) ∧ turns (mixed 49) = 49 ∧ turns (mixed 50) = 50 :=
  ⟨rfl, ⟨rfl, rfl⟩, rfl, mixed_ticksAndTurns, mixed_turns (by decide), mixed_turns (by decide)⟩

theorem witness_PartialFrameInvisible : idle.cmdReady = true ∧ idle.restLevels ∧ frameOneHot 0x01#8 = true ∧
    TicksAndTurns (mixed 49) ∧ turns (mixed 49) = 49 ∧ TicksAndTurns [] ∧ turns [] = 0 :=
  ⟨rfl, ⟨rfl, rfl⟩, rfl, mixed_ticksAndTurns 49, mixed_turns (by decide), fun _ h => absurd h (List.not_mem_nil), rfl⟩

theorem witness_FirstFrameDefinesRegister : State.reset.cmdReady = true ∧ State.reset.restLevels ∧ frameOneHot 0x04#8 = true :=
  ⟨rfl, ⟨rfl, rfl⟩, rfl⟩

/-- Half a frame through a schedule, and a command that completes in its own step. -/
theorem witness_BusyUntilLastStep : idle.cmdReady = true ∧ (Instr.writeframe 0xA4#8 0x08#8).wellFormed = true ∧
    TicksAndTurns (mixed 49) ∧ turns (mixed 49) = 49 ∧ turns (mixed 50) = 50 ∧ Instr.rdclk.wellFormed = true :=
  ⟨rfl, rfl, mixed_ticksAndTurns 49, mixed_turns (by decide), mixed_turns (by decide), rfl⟩

/-- A rising edge by the sequencer; a step without one; RST with LATCH high, which is not one either. -/
theorem witness_OutFollowsLatchEdges :
    (({ busyWith [.lat true] with latch := false } : State).inputs.head? ≠ some .assertReset ∧
      ∃ t, step { busyWith [.lat true] with latch := false } = .next t ∧ t.latch = true ∧ t.out = 0xA53C#16) ∧
    (∃ t, step (busyWith [.lat false]) = .next t ∧ t.latch = false) ∧
    (∃ t, step { idle with inputs := [.assertReset] } = .next t ∧ idle.latch = true) :=
  ⟨⟨by decide, _, rfl, rfl, rfl⟩, ⟨_, rfl, rfl⟩, ⟨_, rfl, rfl⟩⟩

theorem witness_ShiftStageFollowsClockEdges :
    ∃ t, step { busyWith [.clk true] with sdata := true } = .next t ∧ t.sclk = true ∧ t.sr = 0x4A79#16 :=
  ⟨_, rfl, rfl, by decide⟩

theorem witness_OneWriterOfTheLines :
    ({ busyWith [.clk true] with inputs := [.tick] } : State).inputs = .tick :: [] ∧ Input.tick ≠ .sequencer ∧
    Input.tick ≠ .assertReset ∧ ∃ t, step { busyWith [.clk true] with inputs := [.tick] } = .next t :=
  ⟨rfl, by decide, by decide, ⟨_, rfl⟩⟩

theorem witness_RenderNetEffect : idle.cmdReady = true ∧ idle.restLevels ∧ dpInDomain 0b001#3 = true ∧
    TicksAndTurns (mixed 204) ∧ turns (mixed 204) = 204 := ⟨rfl, ⟨rfl, rfl⟩, rfl, mixed_ticksAndTurns 204, mixed_turns (by decide)⟩

/-- The schedules at which OUT is about to change and has just changed (95_test_vectors P1: steps 50, 101, 152, 203). -/
theorem witness_RenderFramesInTurn : idle.cmdReady = true ∧ idle.restLevels ∧ dpInDomain 0b111#3 = true ∧
    (∀ k, TicksAndTurns (mixed k)) ∧
    ∀ k ∈ [49, 50, 100, 101, 151, 152, 202, 203, 204], turns (mixed k) = k ∧ turns (mixed k) ≤ 204 := by
  refine ⟨rfl, ⟨rfl, rfl⟩, rfl, mixed_ticksAndTurns, fun k hk => ?_⟩
  have h : 10 ≤ k ∧ k ≤ 204 := by revert k; decide
  exact ⟨mixed_turns h.1, by rw [mixed_turns h.1]; exact h.2⟩

theorem witness_DigitsReconstruct : (9959#16).toNat = (99 : Fin 100).val * 100 + (59 : Fin 60).val ∧
    (0#16).toNat = (0 : Fin 100).val * 100 + (0 : Fin 60).val := by decide

theorem witness_RenderTruncates : (65535#16).toNat % 10000 = (5535#16).toNat % 10000 ∧
    (10000#16).toNat % 10000 = (0#16).toNat % 10000 := by decide

/-- The table of R82 and the point bit of R83 are as R81 asks (95_test_vectors S1). -/
theorem witness_ConfigWf : ConfigWf defaultConfig := by
  refine ⟨?_, ?_, ?_, ?_, ?_, ?_⟩ <;> decide

/-- A configuration of other bits and of the variants of 93 U12 that R81 also allows: 6 and 9 without their bars, 7 with its own. -/
theorem witness_ConfigWf_variant : ConfigWf { defaultConfig with
    segLut := #v[0xC0#8, 0xF9#8, 0xA4#8, 0xB0#8, 0x99#8, 0x92#8, 0x83#8, 0xD8#8, 0x80#8, 0x98#8] } := by
  refine ⟨?_, ?_, ?_, ?_, ?_, ?_⟩ <;> decide

theorem witness_AtMostOnePoint : pointLit defaultConfig (pattern defaultConfig 245#16 true 0b001#3 1) = true ∧
    decimalPosition 0b111#3 = -1 := by decide

theorem witness_TickAdvancesClock : (clockAt 3 59).rst = false ∧ (clockAt 3 59).sec.val + 1 = 60 ∧
    (clockAt 7 58).rst = false ∧ (clockAt 7 58).sec.val + 1 ≠ 60 := by decide

theorem witness_TicksClosedForm :
    ({ idle with inputs := List.replicate 60 .tick ++ [.sequencer] } : State).inputs =
      List.replicate 60 .tick ++ [.sequencer] ∧ idle.rst = false ∧ idle.sec = 0 ∧ idle.min = 0 := ⟨rfl, rfl, rfl, rfl⟩

theorem witness_TickAgainst : (clockAt 5 59).cmdReady = true ∧ decode (.command 0x400000#24) = .ok .clkrst ∧
    decode (.command 0x500000#24) = .ok .rdclk := ⟨rfl, rfl, rfl⟩

theorem witness_ClockMovesOnlySo : ∃ t, step { clockAt 5 59 with inputs := [.tick] } = .next t ∧ t.min ≠ 5 ∧ t.min ≠ 0 :=
  ⟨_, rfl, by decide, by decide⟩

theorem witness_TickCommutes :
    (∃ t, Host.Core.run Sys2Proof.core 2 { busyWith [.clk true] with inputs := [.tick, .sequencer] } = .next t) ∧
    (∃ t, Host.Core.run Sys2Proof.core 2 { idle with inputs := [.tick, .command 0x1000A5#24] } = .next t) ∧
    decode (.command 0x1000A5#24) = .ok (.shiftout 0xA5#8) ∧ Instr.shiftout 0xA5#8 ≠ .clkrst ∧
    Instr.shiftout 0xA5#8 ≠ .rdclk := ⟨⟨_, rfl⟩, ⟨_, rfl⟩, rfl, by decide, by decide⟩

theorem witness_TicksDoNotDisturbTheSequencer :
    (busyWith (shiftSeq 0xA5#8)).rst = false ∧ TicksAndTurns (mixed 24) := ⟨rfl, mixed_ticksAndTurns 24⟩

theorem witness_InstructionFrames : (∃ t, exec (.shiftout 0xA5#8) idle = .next t) ∧
    (∃ t, exec (.writeframe 0xA4#8 0x02#8) idle = .next t) ∧ (∃ t, exec (.render 245#16 true 0b001#3) idle = .next t) ∧
    (∃ t, exec .clkrst idle = .next t) ∧ (∃ t, exec .rdclk idle = .next t) ∧ (∃ t, exec .tick idle = .next t) :=
  ⟨⟨_, rfl⟩, ⟨_, rfl⟩, ⟨_, rfl⟩, ⟨_, rfl⟩, ⟨_, rfl⟩, ⟨_, rfl⟩⟩

theorem witness_CounterFormEquivalent : (CounterState.accept (.shiftout 0xA5#8) idle).base.rst = false ∧
    (CounterState.accept (.shiftout 0xA5#8) idle).toList.busy = true ∧
    ({ CounterState.accept (.shiftout 0xA5#8) idle with useq := 24 } : CounterState).toList.busy = false := by decide

theorem witness_AssertedResetLevels :
    ({ busyWith [.lat true] with latch := false, inputs := [.assertReset] } : State).inputs = .assertReset :: [] ∧
    ({ busyWith [.lat true] with latch := false, inputs := [.assertReset] } : State).latch = false ∧
    ({ idle with inputs := [.assertReset] } : State).inputs = .assertReset :: [] ∧ idle.latch = true := ⟨rfl, rfl, rfl, rfl⟩

/-- A state with RST asserted and the levels R127 gives it. -/
def inReset : State := { idle with rst := true }

theorem witness_NothingMovesUnderReset : inReset.rst = true ∧
    ({ inReset with inputs := [.tick, .sequencer, .command 0x400000#24] } : State).inputs =
      .tick :: [.sequencer, .command 0x400000#24] ∧
    ({ inReset with inputs := [.sequencer] } : State).inputs = .sequencer :: [] ∧
    ({ inReset with inputs := [.command 0x400000#24] } : State).inputs = .command 0x400000#24 :: [] := ⟨rfl, rfl, rfl, rfl⟩

theorem witness_ResetLevelsHeld : inReset.rst = true ∧ inReset.ResetInv ∧ ∃ t, step { inReset with inputs := [.tick] } = .next t :=
  ⟨rfl, fun _ => ⟨rfl, rfl, rfl, rfl, rfl, rfl⟩, ⟨_, rfl⟩⟩

/-- A state before the last two steps of a frame: the invariant holds though LATCH is low and SCLK high. -/
def midFrame : State := { busyWith [.clk false, .lat true] with latch := false, sclk := true }

theorem witness_QueueInvariant : midFrame.QueueInv ∧ ∃ t, step midFrame = .next t :=
  ⟨⟨⟨.writeframe 0xA4#8 0x02#8, rfl, 48, rfl⟩, rfl, rfl⟩, ⟨_, rfl⟩⟩

theorem witness_QueueInvariantMeaning : idle.QueueInv ∧ idle.q = [] := ⟨⟨⟨.clkrst, rfl, 0, rfl⟩, rfl, rfl⟩, rfl⟩

/-- A state in which a frame has been latched. -/
def shown : State := { idle with trace := [.latched 0x9908#16] }

theorem witness_FrameInvariant : shown.QueueInv ∧ shown.FrameInv ∧ shown.noReset ∧ Event.latched 0x9908#16 ∈ shown.trace ∧
    ∃ t, step shown = .next t := by
  refine ⟨⟨⟨.clkrst, rfl, 0, rfl⟩, rfl, rfl⟩, ⟨fun w h => ?_, fun w _ => List.mem_singleton.mpr rfl⟩,
    List.not_mem_nil, List.mem_singleton.mpr rfl, ⟨_, rfl⟩⟩
  injection List.mem_singleton.mp h with h
  rw [h]
  decide

theorem witness_step : (∃ t, step { idle with inputs := [.assertReset] } = .next t) ∧
    ∃ t, step { idle with inputs := [.command 0x500000#24] } = .next t := ⟨⟨_, rfl⟩, ⟨_, rfl⟩⟩

end Sys2Proof.Tests
end

/-! The encoding obligations (30_encoding) and the `RDCLK` response (R66): which words are read as each instruction, said once as
an equivalence per row over the fields of the word, and the fields of the words built by concatenation. -/

namespace Sys2Proof

open Machine

/-! ### A field of a word as a number -/

theorem field_eq_iff {n : Nat} (w : BitVec n) (lo len : Nat) (v : BitVec len) :
    w.extractLsb' lo len = v ↔ w.toNat / 2 ^ lo % 2 ^ len = v.toNat := by
  rw [← BitVec.toNat_inj, BitVec.extractLsb'_toNat, Nat.shiftRight_eq_div_pow]

theorem bit_eq_iff {n : Nat} (w : BitVec n) (i : Nat) (v : Bool) :
    w.getLsbD i = v ↔ (w.toNat / 2 ^ i % 2 = 1 ↔ v = true) := by
  rw [Bool.eq_iff_iff, BitVec.getLsbD, Nat.testBit_eq_decide_div_mod_eq, decide_eq_true_iff]

/-- Masking away the low k bits and comparing with m · 2^k compares the rest of the word with m. -/
theorem maskHigh_eq_iff (w : CommandWord) {k m : Nat} (hm : m * 2 ^ k < 2 ^ 24) :
    w &&& BitVec.allOnes 24 <<< k = BitVec.ofNat 24 (m * 2 ^ k) ↔ w.toNat / 2 ^ k = m := by
  have hle : w.toNat / 2 ^ k * 2 ^ k ≤ w.toNat := Nat.div_mul_le_self _ _
  have hlt : w.toNat / 2 ^ k * 2 ^ k < 2 ^ 24 := hle.trans_lt w.isLt
  rw [← BitVec.shiftLeft_ushiftRight, ← BitVec.toNat_inj, BitVec.toNat_shiftLeft, BitVec.toNat_ushiftRight,
    BitVec.toNat_ofNat, Nat.shiftLeft_eq, Nat.shiftRight_eq_div_pow, Nat.mod_eq_of_lt hlt, Nat.mod_eq_of_lt hm,
    Nat.mul_left_inj (Nat.two_pow_pos k).ne']

/-! ### The words read as each instruction (R50 to R53, R60) -/

/-- The word reads as the instruction: its opcode, its zero field and its operand fields are those of the instruction's format. -/
def ReadsAs (w : CommandWord) : Instr → Prop
  | .shiftout b => w.toNat / 2 ^ 20 = 1 ∧ w.toNat / 2 ^ 8 % 2 ^ 12 = 0 ∧ w.extractLsb' 0 8 = b
  | .writeframe s d =>
    w.toNat / 2 ^ 20 = 2 ∧ w.toNat / 2 ^ 16 % 2 ^ 4 = 0 ∧ w.extractLsb' 8 8 = s ∧ w.extractLsb' 0 8 = d
  | .render n sd dpf =>
    w.toNat / 2 ^ 20 = 3 ∧ w.extractLsb' 0 16 = n ∧ w.getLsbD 19 = sd ∧ w.extractLsb' 16 3 = dpf
  | .clkrst => w.toNat / 2 ^ 20 = 4 ∧ w.toNat % 2 ^ 20 = 0
  | .rdclk => w.toNat / 2 ^ 20 = 5 ∧ w.toNat % 2 ^ 20 = 0
  | .tick => False

/-- Each branch of the decoder is taken by one row only, since the opcodes differ. -/
theorem decodeCommand_ok_iff (w : CommandWord) (i : Instr) : decodeCommand w = .ok i ↔ ReadsAs w i := by
  rw [decodeCommand_eq, Nat.pow_zero, Nat.div_one]
  split_ifs <;> cases i <;> simp [-Nat.reducePow, ReadsAs, *]

theorem decodeCommand_opcodeKnown_iff (w : CommandWord) : decodeCommand w = .error .opcodeKnown ↔
    w.toNat / 2 ^ 20 = 0 ∨ 6 ≤ w.toNat / 2 ^ 20 := by
  rw [decodeCommand_eq]
  split_ifs <;> simp only [reduceCtorEq, Except.error.injEq, false_iff, true_iff] <;> omega

/-- Settles O3: each row's mask keeps the bits above a free low part, so the opcode and the zero field together are one number, the
quotient of the word by that part's size. -/
theorem decodeFollowsOpcodeMap : Obligations.DecodeFollowsOpcodeMap := by
  intro w
  refine ⟨?shiftout, ?writeframe, ?render, ?clkrst, ?rdclk, decodeCommand_opcodeKnown_iff w, decodeCommand_ne_tick w⟩
  case shiftout =>
    have hmask : w &&& 0xFFFF00#24 = 0x100000#24 ↔ w.toNat / 2 ^ 8 = 0x1000 :=
      maskHigh_eq_iff w (k := 8) (m := 0x1000) (by decide)
    simp only [hmask, decodeCommand_ok_iff, ReadsAs, exists_and_left, exists_eq', and_true]
    omega
  case writeframe =>
    have hmask : w &&& 0xFF0000#24 = 0x200000#24 ↔ w.toNat / 2 ^ 16 = 0x20 :=
      maskHigh_eq_iff w (k := 16) (m := 0x20) (by decide)
    simp only [hmask, decodeCommand_ok_iff, ReadsAs, exists_and_left, exists_eq', and_true]
    omega
  case render =>
    have hmask : w &&& 0xF00000#24 = 0x300000#24 ↔ w.toNat / 2 ^ 20 = 0x3 :=
      maskHigh_eq_iff w (k := 20) (m := 0x3) (by decide)
    simp only [hmask, decodeCommand_ok_iff, ReadsAs, exists_and_left, exists_eq', and_true]
  case clkrst =>
    have hmask : w &&& 0xFFFFFF#24 = 0x400000#24 ↔ w.toNat / 2 ^ 0 = 0x400000 :=
      maskHigh_eq_iff w (k := 0) (m := 0x400000) (by decide)
    simp only [hmask, decodeCommand_ok_iff, ReadsAs]
    omega
  case rdclk =>
    have hmask : w &&& 0xFFFFFF#24 = 0x500000#24 ↔ w.toNat / 2 ^ 0 = 0x500000 :=
      maskHigh_eq_iff w (k := 0) (m := 0x500000) (by decide)
    simp only [hmask, decodeCommand_ok_iff, ReadsAs]
    omega

/-! ### Operands -/

/-- CW[15:0] of a `WRITEFRAME` word is the frame word of its two operands (R51, R55). -/
theorem frameWord_operandFields (w : CommandWord) :
    frameWord (w.extractLsb' 8 8) (w.extractLsb' 0 8) = w.extractLsb' 0 16 :=
  BitVec.extractLsb'_append_extractLsb'_eq_extractLsb' (start₁ := 0) (len₁ := 8) (len₂ := 8) rfl

theorem writeframe_wellFormed_iff (s d : Byte) :
    (Instr.writeframe s d).wellFormed = true ↔ d ∈ [0x01#8, 0x02#8, 0x04#8, 0x08#8] := by
  have hcheck : (Instr.writeframe s d).wellFormed = frameOneHot d := by
    cases h : frameOneHot d <;> simp [Instr.wellFormed, Instr.check, h]
  rw [hcheck, frameOneHot_iff]
  exact List.mem_map_of_injective (l := [0x01#8, 0x02#8, 0x04#8, 0x08#8]) BitVec.toNat_injective

/-- Settles O4: the equivalence of each row, its operand fields read as numbers. -/
theorem operandFieldsOfWords : Obligations.OperandFieldsOfWords := by
  intro w
  refine ⟨fun b => ?shiftout, fun s d => ?writeframe, fun n sd dpf => ?render, decodeCommand_ok_iff w .clkrst,
    decodeCommand_ok_iff w .rdclk, fun _ _ => rfl, fun s d h => ⟨?frame, writeframe_wellFormed_iff s d⟩⟩
  case shiftout => simp only [decodeCommand_ok_iff, ReadsAs, field_eq_iff, Nat.pow_zero, Nat.div_one]
  case writeframe => simp only [decodeCommand_ok_iff, ReadsAs, field_eq_iff, Nat.pow_zero, Nat.div_one]
  case render =>
    simp only [decodeCommand_ok_iff, ReadsAs, field_eq_iff, bit_eq_iff, Nat.pow_zero, Nat.div_one]
    tauto
  case frame =>
    obtain ⟨-, -, rfl, rfl⟩ := (decodeCommand_ok_iff w (.writeframe s d)).mp h
    rw [frameWord_operandFields, BitVec.extractLsb'_toNat, Nat.shiftRight_zero]

/-! ### `decimalPosition` (R57) -/

theorem decimalPosition_eq (dpf : BitVec 3) :
    decimalPosition dpf = if dpf.toNat ≤ 3 then (dpf.toNat : Int) else (dpf.toNat : Int) - 8 := by
  revert dpf; decide

theorem render_wellFormed_iff (n : Number) (sd : Bool) (dpf : BitVec 3) :
    (Instr.render n sd dpf).wellFormed = true ↔ decimalPosition dpf ∈ ([-1, 0, 1, 2, 3] : List Int) := by
  have hcheck : (Instr.render n sd dpf).wellFormed = dpInDomain dpf := by
    cases h : dpInDomain dpf <;> simp [Instr.wellFormed, Instr.check, h]
  rw [hcheck, dpInDomain, List.contains_iff_mem, dpPosSet_eq]

theorem dpField_encode_render (n : Number) (sd : Bool) (dpf : BitVec 3) :
    (0x3#4 ++ BitVec.ofBool sd ++ dpf ++ n).extractLsb' 16 3 = dpf := by
  rw [BitVec.extractLsb'_append_eq_of_le (Nat.le_refl 16)]
  exact BitVec.extractLsb'_append_eq_right

/-- Settles O6, from the value of the pattern as a number: itself up to 3, eight less above. -/
theorem decimalPositionPatterns : Obligations.DecimalPositionPatterns := by
  intro dpf
  have hv := decimalPosition_eq dpf
  refine ⟨fun h => ?_, fun h => ?_, fun h => ?_, fun n sd => ⟨render_wellFormed_iff n sd dpf, _, rfl, ?_⟩⟩
  · rw [hv, if_pos h]
  · have hneg : decimalPosition dpf = -1 := by rw [hv, h]; rfl
    exact ⟨hneg, fun p => by omega⟩
  · rw [hv, if_neg (by omega)]
  · exact (field_eq_iff _ 16 3 dpf).mp (dpField_encode_render n sd dpf)

/-! ### The `RDCLK` response (R66, R94) -/

theorem rminOf_responseWord (m c : Nat) : rminOf (responseWord m c) = BitVec.ofNat 7 m := by
  rw [rminOf, responseWord, BitVec.extractLsb'_append_eq_of_le (by decide)]
  exact BitVec.extractLsb'_append_eq_left

theorem rsecOf_responseWord (m c : Nat) : rsecOf (responseWord m c) = BitVec.ofNat 6 c := by
  rw [rsecOf, responseWord, BitVec.extractLsb'_append_eq_of_le (by decide)]
  exact BitVec.extractLsb'_append_eq_right

theorem rmmssOf_responseWord (m c : Nat) : rmmssOf (responseWord m c) = BitVec.ofNat 14 (packMmss m c) :=
  BitVec.extractLsb'_append_eq_right

/-- Settles O32: RSP is the concatenation of its fields, and MIN < 100 and SEC < 60 fit theirs, as MIN · 100 + SEC < 10000 does. -/
theorem rdclkPresentsClock : Obligations.RdclkPresentsClock := by
  intro s hready
  have hmin : s.min.val < 100 := s.min.isLt
  have hsec : s.sec.val < 60 := s.sec.isLt
  refine ⟨responseWord s.min.val s.sec.val, exec_rdclk_accepts hready, ?min, ?sec, ?mmss⟩
  case min =>
    calc (rminOf (responseWord s.min.val s.sec.val)).toNat = s.min.val % 2 ^ 7 := by
          rw [rminOf_responseWord, BitVec.toNat_ofNat]
      _ = s.min.val := by omega
  case sec =>
    calc (rsecOf (responseWord s.min.val s.sec.val)).toNat = s.sec.val % 2 ^ 6 := by
          rw [rsecOf_responseWord, BitVec.toNat_ofNat]
      _ = s.sec.val := by omega
  case mmss =>
    calc (rmmssOf (responseWord s.min.val s.sec.val)).toNat = (s.min.val * 100 + s.sec.val) % 2 ^ 14 := by
          rw [rmmssOf_responseWord, BitVec.toNat_ofNat]; rfl
      _ = s.min.val * 100 + s.sec.val := by omega

end Sys2Proof

/-! The Shift-Register Driver (40_shift_register_driver): each micro-operation as R67 to R69 write it, a command accepted from its own
word, and a run over any schedule of ticks and turns, whose pins and downstream register are those of the turns alone. -/

namespace Sys2Proof

open Machine

/-! ### Decoding what was encoded -/

theorem sdField_encode_render (n : Number) (sd : Bool) (dpf : BitVec 3) :
    (0x3#4 ++ BitVec.ofBool sd ++ dpf ++ n).getLsbD 19 = sd := by
  simp only [BitVec.getLsbD_append]
  cases sd <;> rfl

/-- The word of each row lies in that row, so it is read as that row's instruction, and its operand fields are those put in. -/
theorem decode_encode (i : Instr) : decode (encode i) = .ok i := by
  cases i with
  | shiftout b =>
    obtain ⟨hrow, -⟩ := decodeFollowsOpcodeMap (0x1#4 ++ 0#12 ++ b)
    obtain ⟨b', h⟩ := hrow.mpr (Laws.TableRow.shiftout b)
    obtain ⟨-, -, hb⟩ := (decodeCommand_ok_iff _ _).mp h
    rw [BitVec.extractLsb'_append_eq_right] at hb
    exact (decode_command_iff _ _).mpr (hb ▸ h)
  | writeframe x d =>
    obtain ⟨-, hrow, -⟩ := decodeFollowsOpcodeMap (0x2#4 ++ 0#4 ++ x ++ d)
    obtain ⟨x', d', h⟩ := hrow.mpr (Laws.TableRow.writeframe x d)
    obtain ⟨-, -, hx, hd⟩ := (decodeCommand_ok_iff _ _).mp h
    rw [BitVec.extractLsb'_append_eq_of_le (Nat.le_refl 8), BitVec.extractLsb'_append_eq_right] at hx
    rw [BitVec.extractLsb'_append_eq_right] at hd
    exact (decode_command_iff _ _).mpr (by rw [← hx, ← hd] at h; exact h)
  | render n sd dpf =>
    obtain ⟨-, -, hrow, -⟩ := decodeFollowsOpcodeMap (0x3#4 ++ BitVec.ofBool sd ++ dpf ++ n)
    obtain ⟨n', sd', dpf', h⟩ := hrow.mpr (Laws.TableRow.render n sd dpf)
    obtain ⟨-, hn, hsd, hdpf⟩ := (decodeCommand_ok_iff _ _).mp h
    rw [BitVec.extractLsb'_append_eq_right] at hn
    rw [sdField_encode_render] at hsd
    rw [dpField_encode_render] at hdpf
    exact (decode_command_iff _ _).mpr (by rw [← hn, ← hsd, ← hdpf] at h; exact h)
  | clkrst => rfl
  | rdclk => rfl
  | tick => rfl

end Sys2Proof

namespace Sys2Proof.Machine

/-! ### The micro-operations (R67 to R69) -/

theorem shiftIn_eq_append (sr : Frame) (b : Bool) : shiftIn sr b = sr.extractLsb' 0 15 ++ BitVec.ofBool b := by
  rw [shiftIn, BitVec.concat, BitVec.setWidth_eq_extractLsb' (by decide)]

theorem perform_clk (v : Bool) (s : State) : s.perform (.clk v) =
    { s with
      sclk := v
      sr := if s.sclk = false ∧ v = true then s.sr.extractLsb' 0 15 ++ BitVec.ofBool s.sdata else s.sr
      trace := s.trace ++ [.pin .sclk v] } := by
  ext <;> simp [State.perform, State.pinWrite, shiftIn_eq_append]

theorem perform_lat (v : Bool) (s : State) : s.perform (.lat v) =
    { s with
      latch := v
      out := if s.latch = false ∧ v = true then s.sr else s.out
      trace := s.trace ++ [.pin .latch v] ++ if s.latch = false ∧ v = true then [.latched s.sr] else [] } := by
  by_cases h : s.latch = false ∧ v = true
  · ext <;> simp [State.perform, State.pinWrite, h]
  · ext <;> simp [State.perform, State.pinWrite, h]

/-- Settles O12: the data line and the dwell by definition, the two lines with an edge rule by whether the write makes the edge. -/
theorem microOperationEffects : Obligations.MicroOperationEffects := fun s =>
  ⟨fun _ => rfl, fun v => perform_clk v s, fun v => perform_lat v s, fun _ => rfl⟩

/-! ### OUT while no latch edge is performed (R41, R69) -/

theorem perform_out_of_ne_latch {m : MicroOp} (h : m ≠ .lat true) (s : State) : (s.perform m).out = s.out := by
  cases m with
  | dat v => rfl
  | clk v => rw [perform_clk]
  | lat v =>
    have hv : v = false := by simpa using h
    simp [perform_lat, hv]
  | dwell p => rfl

theorem drain_out_of_no_latch {ops : List MicroOp} (h : .lat true ∉ ops) (s : State) : (s.drain ops).out = s.out := by
  induction ops generalizing s with
  | nil => rfl
  | cons m rest ih =>
    obtain ⟨hm, hrest⟩ := List.ne_and_not_mem_of_not_mem_cons h
    rw [State.drain_cons, ih hrest, perform_out_of_ne_latch hm.symm]

theorem lat_not_mem_shiftSeq (v : Bool) (b : Byte) : .lat v ∉ shiftSeq b := by
  simp [shiftSeq, bitSeq]

/-- The latch edge is the last of a frame's 50 entries. -/
theorem latch_not_mem_frameSeq_take (x d : Byte) {k : Nat} (hk : k ≤ 49) : MicroOp.lat true ∉ (frameSeq x d).take k := by
  have hbody : k ≤ ([MicroOp.lat false] ++ shiftSeq x ++ shiftSeq d).length := hk
  rw [frameSeq_eq, List.take_append_of_le_length hbody]
  intro hmem
  have hframe := List.mem_of_mem_take hmem
  simp [lat_not_mem_shiftSeq] at hframe

/-! ### What the tick leaves alone (R45) -/

/-- The state with what the tick source writes left out: the Clock State and the clock events, and the inputs still to come. -/
def State.withoutClock (s : State) : State := { s with sec := 0, min := 0, inputs := [], trace := s.pinTrace }

theorem tickClock_withoutClock (s : State) : s.tickClock.withoutClock = s.withoutClock := by
  ext <;> simp [State.withoutClock, State.pinTrace, Event.onPins]

theorem emit_withoutClock {e : Event} (h : e.onPins = true) (s : State) :
    (s.emit e).withoutClock = s.withoutClock.emit e := by
  ext <;> simp [State.withoutClock, State.pinTrace, h]

theorem driveSclk_withoutClock (v : Bool) (s : State) : (s.driveSclk v).withoutClock = s.withoutClock.driveSclk v := by
  ext <;> simp [State.withoutClock, State.pinTrace]

theorem driveLatch_withoutClock (v : Bool) (s : State) : (s.driveLatch v).withoutClock = s.withoutClock.driveLatch v := by
  by_cases h : (!s.latch && v) = true
  · ext <;> simp [State.withoutClock, State.pinTrace, List.filter_cons, Event.onPins, h]
  · ext <;> simp [State.withoutClock, State.pinTrace, h]

theorem perform_withoutClock (m : MicroOp) (s : State) : (s.perform m).withoutClock = s.withoutClock.perform m := by
  cases m with
  | dat v => exact congrArg (fun u : State => { u with sdata := v }) (emit_withoutClock (e := .pin .sdata v) rfl s)
  | clk v => exact (driveSclk_withoutClock v _).trans (congrArg _ (emit_withoutClock rfl s))
  | lat v => exact (driveLatch_withoutClock v _).trans (congrArg _ (emit_withoutClock rfl s))
  | dwell p => exact emit_withoutClock rfl s

theorem sequencerStep_withoutClock {s : State} (hr : s.rst = false) :
    s.sequencerStep.withoutClock = s.withoutClock.sequencerStep := by
  cases hq : s.q with
  | nil => rw [State.sequencerStep_idle hq, State.sequencerStep_idle (s := s.withoutClock) hq]
  | cons m rest =>
    rw [State.sequencerStep_cons hr hq, State.sequencerStep_cons (s := s.withoutClock) hr hq, perform_withoutClock]
    rfl

@[simp] theorem sequencerStep_rst (s : State) : s.sequencerStep.rst = s.rst := by
  obtain h | ⟨m, rest, -, -, h⟩ := s.sequencerStep_cases
  · rw [h]
  · rw [h, State.perform_rst]

@[simp] theorem sequencerStep_inputs (s : State) : s.sequencerStep.inputs = s.inputs := by
  obtain h | ⟨m, rest, -, -, h⟩ := s.sequencerStep_cases
  · rw [h]
  · rw [h, State.perform_inputs]

@[simp] theorem sequencerStep_clockTotal (s : State) : s.sequencerStep.clockTotal = s.clockTotal := by
  obtain h | ⟨m, rest, -, -, h⟩ := s.sequencerStep_cases
  · rw [h]
  · simp only [h, State.clockTotal, State.perform_min, State.perform_sec]

/-- k turns perform the first k entries of Q, and none when Q has run out. -/
theorem sequencerStep_iterate (k : Nat) {s : State} (hr : s.rst = false) :
    State.sequencerStep^[k] s = ({ s with q := s.q.drop k } : State).drain (s.q.take k) := by
  induction k generalizing s with
  | zero => rfl
  | succ k ih =>
    rw [Function.iterate_succ_apply, ih ((sequencerStep_rst s).trans hr)]
    cases hq : s.q with
    | nil => simp [State.sequencerStep_idle hq, hq]
    | cons m rest =>
      rw [State.sequencerStep_cons hr hq, State.perform_q, List.take_succ_cons, List.drop_succ_cons, State.drain_cons,
        ← State.perform_setQ]

/-! ### Runs over a schedule of ticks and turns -/

theorem clockTotal_lt (s : State) : s.clockTotal < 6000 := by
  have hsec : s.sec.val < 60 := s.sec.isLt
  have hmin : s.min.val < 100 := s.min.isLt
  simp only [State.clockTotal, secMod]
  omega

/-- One input of a schedule: a turn moves the sequencer and leaves the clock, a tick the other way round. -/
theorem step_tickOrTurn {x : Input} {rest : List Input} {s : State} (hi : s.inputs = x :: rest) (hr : s.rst = false)
    (hx : x = .tick ∨ x = .sequencer) :
    ∃ u, step s = .next u ∧ u.inputs = rest ∧ u.rst = false ∧
      u.withoutClock = State.sequencerStep^[turns [x]] s.withoutClock ∧
      u.clockTotal = (s.clockTotal + firings [x]) % 6000 := by
  obtain rfl | rfl := hx
  · refine ⟨({ s with inputs := rest } : State).tickClock, ?_, by simp, by simpa using hr, tickClock_withoutClock _,
      State.tickClock_total _⟩
    rw [step, hi]
    exact exec_tick_out_of_reset hr
  · refine ⟨({ s with inputs := rest } : State).sequencerStep, ?_, sequencerStep_inputs _, (sequencerStep_rst _).trans hr,
      sequencerStep_withoutClock hr, ?_⟩
    · rw [step, hi]
      rfl
    · rw [sequencerStep_clockTotal]
      exact (Nat.mod_eq_of_lt (clockTotal_lt s)).symm

/-- A schedule of ticks and turns runs through out of reset: the turns alone decide everything but the clock, and the ticks alone decide
the clock (R44, R45, R98). -/
theorem run_ticksAndTurns {sched : List Input} {s : State} (hi : s.inputs = sched) (hr : s.rst = false)
    (hsched : TicksAndTurns sched) :
    ∃ t, Host.Core.run Sys2Proof.core sched.length s = .next t ∧
      t.withoutClock = State.sequencerStep^[turns sched] s.withoutClock ∧
      t.clockTotal = (s.clockTotal + firings sched) % 6000 := by
  induction sched generalizing s with
  | nil => exact ⟨s, rfl, rfl, (Nat.mod_eq_of_lt (clockTotal_lt s)).symm⟩
  | cons x rest ih =>
    obtain ⟨hx, hrest⟩ := List.forall_mem_cons.mp hsched
    obtain ⟨u, hstep, hui, hur, hupins, huclock⟩ := step_tickOrTurn hi hr hx
    obtain ⟨t, hrun, hpins, hclock⟩ := ih hui hur hrest
    have hturns : turns (x :: rest) = turns rest + turns [x] := (List.count_append (l₁ := [x])).trans (Nat.add_comm _ _)
    have hfirings : firings (x :: rest) = firings [x] + firings rest := List.count_append (l₁ := [x])
    refine ⟨t, (run_succ hstep).trans hrun, ?_, ?_⟩
    · rw [hpins, hupins, hturns, Function.iterate_add_apply]
    · rw [hclock, huclock, hfirings]
      omega

/-- The input that presents an instruction's own word, to a ready block, runs that instruction. -/
theorem step_inputsOf_encode (i : Instr) {s : State} (rest : List Input) (hready : s.cmdReady = true) :
    step { s with inputs := inputsOf (encode i) ++ rest } = exec i { s with inputs := rest } := by
  obtain ⟨hq, hr⟩ := s.cmdReady_iff.mp hready
  have hdec := decode_encode i
  cases hp : encode i with
  | command w =>
    rw [hp, decode_command_iff] at hdec
    simp [step, inputsOf, runInput, presentCommand, hr, State.busy, hq, hdec]
  | tickIn v =>
    rw [hp, decode] at hdec
    split at hdec
    · next hv =>
      obtain rfl := Except.ok.inj hdec
      simp [step, inputsOf, runInput, presentTick_one, hv]
    · cases hdec

/-- A command that loads its expansion, then any schedule of ticks and turns: as many of the micro-operations as there were turns have
been performed, and the ticks have moved the clock. -/
theorem run_command_ticksAndTurns {i : Instr} {s : State} {sched : List Input} (hready : s.cmdReady = true)
    (hexec : exec i { s with inputs := sched } = .next (({ s with inputs := sched } : State).load (expand s.cfg i)))
    (hsched : TicksAndTurns sched) :
    ∃ t, Host.Core.run Sys2Proof.core (sched.length + 1) { s with inputs := inputsOf (encode i) ++ sched } = .next t ∧
      t.withoutClock = ({ s.withoutClock with q := (expand s.cfg i).drop (turns sched) } : State).drain
        ((expand s.cfg i).take (turns sched)) ∧
      t.clockTotal = (s.clockTotal + firings sched) % 6000 := by
  obtain ⟨-, hr⟩ := s.cmdReady_iff.mp hready
  obtain ⟨t, hrun, hpins, hclock⟩ :=
    run_ticksAndTurns (sched := sched) (s := ({ s with inputs := sched } : State).load (expand s.cfg i)) rfl hr hsched
  have hstep := (step_inputsOf_encode i sched hready).trans hexec
  exact ⟨t, (run_succ hstep).trans hrun, hpins.trans (sequencerStep_iterate _ hr), hclock⟩

/-! ### Net effects (R73, R75) -/

/-- Settles O15: the 24 turns perform ShiftSeq(b) whole, on a state without the clock. -/
theorem shiftoutNetEffect : Obligations.ShiftoutNetEffect := by
  intro b s sched hready hsclk hsched hturns
  obtain ⟨t, hrun, hpins, hclock⟩ :=
    run_command_ticksAndTurns hready (exec_shiftout_accepts b (s := { s with inputs := sched }) hready) hsched
  rw [hturns] at hpins
  obtain ⟨-, -, hlatch, hlow, hsdata, hq, hsr, hout, -, -, -, -, htrace, -⟩ :=
    State.ext_iff.mp (hpins.trans (drain_shiftSeq b hsclk))
  exact ⟨t, hrun, hsr, hlow.trans hsclk, hsdata, hlatch, hout, hq, htrace, hclock⟩

/-- Settles O17: up to 49 turns perform no latch edge, and 50 perform FrameSeq(x, d) whole. -/
theorem writeframeNetEffect : Obligations.WriteframeNetEffect := by
  intro x d s sched hready hrest hd hsched _
  obtain ⟨hsclk, -⟩ := hrest
  obtain ⟨t, hrun, hpins, hclock⟩ :=
    run_command_ticksAndTurns hready (exec_writeframe_accepts (x := x) (s := { s with inputs := sched }) hready hd) hsched
  refine ⟨t, hrun, hclock, fun hpart => ?unlatched, fun hwhole => ?latched⟩
  case unlatched =>
    have hout := drain_out_of_no_latch (latch_not_mem_frameSeq_take x d hpart)
    exact (congrArg State.out hpins).trans (hout _)
  case latched =>
    rw [hwhole] at hpins
    obtain ⟨-, -, hlatch, hlow, hsdata, hq, hsr, hout, -, -, -, -, htrace, -⟩ :=
      State.ext_iff.mp (hpins.trans (drain_frameSeq x d hsclk))
    exact ⟨hsr, hout, hlatch, hlow.trans hsclk, hsdata, hq, htrace⟩

end Sys2Proof.Machine

/-! The Digit Renderer (41_digit_renderer): which positions have their point lit, what a number keeps of its digits, and the four frames
of a `RENDER` with their dwells, over any schedule of ticks and turns. -/

namespace Sys2Proof.Machine

/-! ### A completed `RENDER` (R86, R87) -/

/-- One position from the rest levels: its frame is latched and then dwelt on, and the lines are at rest again. -/
theorem drain_frameSeq_dwell (x y : Byte) (p : Fin ndigits) {s : State} (hrest : s.restLevels) :
    s.drain (frameSeq x y ++ [.dwell p]) =
      { s with
        sdata := y.getLsbD 0
        sr := frameWord x y
        out := frameWord x y
        trace := s.trace ++ (frameEvents x y ++ [.dwell p]) } := by
  obtain ⟨hsclk, hlatch⟩ := hrest
  rw [State.drain_append, drain_frameSeq x y hsclk, State.drain_cons, State.drain_nil, ← List.append_assoc, ← hlatch]
  rfl

/-- The positions one after another: each replaces SR, OUT and SDATA whole, so what stays is the last position's. -/
theorem drain_frames (pat : Fin ndigits → Byte) (ps : List (Fin ndigits)) {s : State} (hrest : s.restLevels) :
    s.drain (ps.flatMap fun p => frameSeq (pat p) (dsel p) ++ [.dwell p]) =
      { s with
        sdata := ps.foldl (fun _ p => (dsel p).getLsbD 0) s.sdata
        sr := ps.foldl (fun _ p => frameWord (pat p) (dsel p)) s.sr
        out := ps.foldl (fun _ p => frameWord (pat p) (dsel p)) s.out
        trace := s.trace ++ ps.flatMap fun p => frameEvents (pat p) (dsel p) ++ [.dwell p] } := by
  induction ps generalizing s with
  | nil => rw [List.flatMap_nil, List.flatMap_nil, List.append_nil]; rfl
  | cons p ps ih =>
    rw [List.flatMap_cons, State.drain_append, drain_frameSeq_dwell _ _ p hrest, ih, List.flatMap_cons, List.append_assoc s.trace]
    · rfl
    · exact hrest

/-- RenderSeq(n, sd, dp) from the rest levels. -/
theorem drain_renderSeq (c : Config) (n : Number) (sd : Bool) (dpf : BitVec 3) {s : State} (hrest : s.restLevels) :
    s.drain (renderSeq c n sd dpf) =
      { s with
        sdata := false
        sr := renderFrame c n sd dpf 3
        out := renderFrame c n sd dpf 3
        trace := s.trace ++ positions.flatMap fun p => frameEvents (pattern c n sd dpf p) (dsel p) ++ [.dwell p] } := by
  rw [renderSeq_eq, drain_frames _ _ hrest]
  rfl

/-- Settles O24: the 204 turns perform RenderSeq(n, sd, dp) whole, on a state without the clock. -/
theorem renderNetEffect : Obligations.RenderNetEffect := by
  intro n sd dpf s sched hready hrest hdp hsched hturns
  obtain ⟨t, hrun, hpins, hclock⟩ :=
    run_command_ticksAndTurns hready (exec_render_accepts (n := n) (sd := sd) (s := { s with inputs := sched }) hready hdp) hsched
  have hall : turns sched = (expand s.cfg (.render n sd dpf)).length := hturns.trans (renderSeq_length s.cfg n sd dpf).symm
  rw [hall, List.drop_length, List.take_length] at hpins
  obtain ⟨-, -, hlatch, hsclk, hsdata, hq, hsr, hout, -, -, -, -, htrace, -⟩ :=
    State.ext_iff.mp (hpins.trans (drain_renderSeq s.cfg n sd dpf hrest))
  obtain ⟨hlow, hhigh⟩ := hrest
  refine ⟨t, hrun, hsr, hout, hlatch.trans hhigh, hsclk.trans hlow, hsdata, hq, htrace.trans ?_, hclock⟩
  simp only [positions_eq, List.flatMap_cons, List.flatMap_nil, List.append_nil, List.append_assoc]
  rfl

/-! ### The digits that are kept (R79) -/

/-- Settles O27: `render` reads its number through `keptNumber` only, which the two numbers share. -/
theorem renderTruncates : Obligations.RenderTruncates := by
  intro c n m sd dpf hmod
  have hkept : keptNumber n = keptNumber m := congrArg (BitVec.ofNat 16) hmod
  refine ⟨fun p => ?digits, ?expansion⟩
  case digits => rw [← digit_keptNumber n, hkept, digit_keptNumber m]
  case expansion => simp only [renderSeq, hkept]

/-! ### The decimal point (R83) -/

theorem pointAt_iff (sd : Bool) (dpf : BitVec 3) (p : Fin ndigits) :
    pointAt sd dpf p = true ↔ sd = true ∧ decimalPosition dpf = (p.val : Int) := by
  rw [pointAt, Bool.and_eq_true, decide_eq_true_iff]

theorem pattern_eq (c : Config) (n : Number) (sd : Bool) (dpf : BitVec 3) (p : Fin ndigits) :
    pattern c n sd dpf p =
      if sd = true ∧ decimalPosition dpf = (p.val : Int) then lutRead c (digit n p) &&& ~~~c.dpMask
      else lutRead c (digit n p) := by
  simp only [pattern, pointAt_iff, litPoint_eq]

theorem pointLit_andNot_dpMask (c : Config) (seg : Byte) : pointLit c (seg &&& ~~~c.dpMask) = true := by
  rw [pointLit_iff, BitVec.and_assoc, BitVec.and_comm (~~~c.dpMask), BitVec.and_not_self]
  exact BitVec.and_zero

theorem oneBit_ne_zero (k : Fin byteBits) : 1#8 <<< k.val ≠ 0#8 := by
  revert k; decide

/-- A table entry is dark, so it holds the whole of DP_MASK, which is not 0. -/
theorem pointLit_lutRead {c : Config} (hc : ConfigWf c) (d : Fin lutSize) : pointLit c (lutRead c d) = false := by
  obtain ⟨⟨k, hk⟩, -, -, hdark, -, -⟩ := hc
  rw [← Bool.not_eq_true, pointLit_iff]
  intro hlit
  have hd : lutRead c d ||| c.dpMask = lutRead c d := hdark d (List.mem_finRange d)
  have hmask : c.dpMask = 0#8 := by
    calc c.dpMask = lutRead c d &&& c.dpMask ||| c.dpMask &&& c.dpMask := by rw [hlit, BitVec.and_self, BitVec.zero_or]
      _ = (lutRead c d ||| c.dpMask) &&& c.dpMask := BitVec.and_or_distrib_right.symm
      _ = 0#8 := by rw [hd, hlit]
  exact oneBit_ne_zero k (hk ▸ hmask)

theorem pointLit_pattern_iff {c : Config} (hc : ConfigWf c) (n : Number) (sd : Bool) (dpf : BitVec 3) (p : Fin ndigits) :
    pointLit c (pattern c n sd dpf p) = true ↔ sd = true ∧ decimalPosition dpf = (p.val : Int) := by
  rw [pattern_eq]
  split_ifs with hpoint
  · exact iff_of_true (pointLit_andNot_dpMask c _) hpoint
  · exact iff_of_false (Bool.eq_false_iff.mp (pointLit_lutRead hc _)) hpoint

/-- Settles O29: the lit position is `decimalPosition`, which is one number, and as -1 it is no position. -/
theorem atMostOnePoint : Obligations.AtMostOnePoint := by
  intro c n sd dpf hc
  have hlit := pointLit_pattern_iff hc n sd dpf
  obtain ⟨hmask, -⟩ := hc
  refine ⟨hmask, pattern_eq c n sd dpf, hlit, fun p q hp hq => ?one, fun hnone p => ?none⟩
  case one =>
    obtain ⟨-, hp⟩ := (hlit p).mp hp
    obtain ⟨-, hq⟩ := (hlit q).mp hq
    omega
  case none =>
    rw [← Bool.not_eq_true, hlit p]
    rintro ⟨hsd, hp⟩
    obtain hoff | hminus := hnone
    · exact absurd (hoff.symm.trans hsd) (by decide)
    · omega

end Sys2Proof.Machine

/-! The Timekeeper (42_timekeeper): the clock read as a number of seconds, ticks in a row, the tick and `CLKRST` as R90 and R92 write
them, a firing and a command one after the other in either order and at the same instant, and the digits of the packed clock value. -/

namespace Sys2Proof.Machine

/-! ### The clock as a number of seconds (R98) -/

theorem sec_eq_clockTotal_mod (s : State) : s.sec.val = s.clockTotal % 60 := by
  have hsec : s.sec.val < 60 := s.sec.isLt
  simp only [State.clockTotal, secMod]
  omega

theorem min_eq_clockTotal_div (s : State) : s.min.val = s.clockTotal / 60 := by
  have hsec : s.sec.val < 60 := s.sec.isLt
  simp only [State.clockTotal, secMod]
  omega

theorem clock_eq_of_clockTotal {s : State} {m : Fin minMod} {c : Fin secMod} (h : s.clockTotal = m.val * 60 + c.val) :
    s.sec = c ∧ s.min = m := by
  have hsec := sec_eq_clockTotal_mod s
  have hmin := min_eq_clockTotal_div s
  have hc : c.val < 60 := c.isLt
  exact ⟨Fin.ext (by omega), Fin.ext (by omega)⟩

theorem clockTotal_zero {s : State} (hsec : s.sec = 0) (hmin : s.min = 0) : s.clockTotal = 0 := by
  simp [State.clockTotal, hsec, hmin]

/-! ### One tick, one `CLKRST` (R90, R92) -/

theorem tickClock_frame (s : State) : s.tickClock =
    { s with
      sec := s.tickClock.sec
      min := s.tickClock.min
      trace := s.trace ++ [.clockWrite s.tickClock.min s.tickClock.sec] } := by
  ext <;> simp

/-- Settles O30: at 59 seconds the tick carries, else it does not, and it writes nothing but the pair and its event. -/
theorem tickAdvancesClock : Obligations.TickAdvancesClock := by
  intro s hr
  refine ⟨s.tickClock, exec_tick_out_of_reset hr, ?_, tickClock_frame s⟩
  split_ifs with hcarry
  · rw [State.tickClock_carry (by omega)]
    exact ⟨rfl, rfl⟩
  · obtain ⟨c, hc, htick⟩ := State.tickClock_no_carry (s := s) (by omega)
    rw [htick]
    exact ⟨hc, rfl⟩

/-- Settles O31: a ready block accepts `CLKRST`, and the write of 0:00 is that update. -/
theorem clkrstZeroesClock : Obligations.ClkrstZeroesClock := fun _ hready => exec_clkrst_accepts hready

/-! ### Ticks in a row (R98) -/

theorem step_tick {s : State} {rest : List Input} (hi : s.inputs = .tick :: rest) (hr : s.rst = false) :
    step s = .next ({ s with inputs := rest } : State).tickClock := by
  rw [step, hi]
  exact exec_tick_out_of_reset hr

/-- k firings in a row, whatever inputs follow them, advance the clock by k seconds modulo its period. -/
theorem run_ticks (k : Nat) {s : State} {rest : List Input} (hr : s.rst = false)
    (hi : s.inputs = List.replicate k .tick ++ rest) :
    ∃ t : State, Host.Core.run Sys2Proof.core k s = .next t ∧ t.inputs = rest ∧
      t.clockTotal = (s.clockTotal + k) % 6000 := by
  induction k generalizing s with
  | zero => exact ⟨s, rfl, hi, (Nat.mod_eq_of_lt (clockTotal_lt s)).symm⟩
  | succ k ih =>
    have hstep : step s = .next ({ s with inputs := List.replicate k .tick ++ rest } : State).tickClock := step_tick hi hr
    obtain ⟨t, hrun, hrest, htotal⟩ := ih (s := ({ s with inputs := List.replicate k .tick ++ rest } : State).tickClock)
      ((State.tickClock_rst _).trans hr) (State.tickClock_inputs _)
    refine ⟨t, (run_succ hstep).trans hrun, hrest, ?_⟩
    calc t.clockTotal = ((s.clockTotal + 1) % 6000 + k) % 6000 := by rw [htotal, State.tickClock_total]; rfl
      _ = (s.clockTotal + (k + 1)) % 6000 := by omega

/-- Settles O33: SEC and MIN are the remainder and the quotient of the number of seconds, which k ticks advance by k. -/
theorem ticksClosedForm : Obligations.TicksClosedForm := by
  intro k s rest hr hi
  obtain ⟨t, hrun, hrest, htotal⟩ := run_ticks k hr hi
  refine ⟨t, hrun, hrest, ?sec, ?min, fun hsec hmin hk => ?sixty, fun hsec hmin hk => ?period⟩
  case sec => exact (sec_eq_clockTotal_mod t).trans (congrArg (· % 60) htotal)
  case min => exact (min_eq_clockTotal_div t).trans (congrArg (· / 60) htotal)
  case sixty =>
    rw [clockTotal_zero hsec hmin, hk] at htotal
    exact clock_eq_of_clockTotal htotal
  case period =>
    rw [clockTotal_zero hsec hmin, hk] at htotal
    exact clock_eq_of_clockTotal htotal

/-! ### A firing and a command (R115) -/

theorem tickClock_cmdReady (s : State) : s.tickClock.cmdReady = s.cmdReady := by
  simp [State.cmdReady, State.busy]

theorem step_command {i : Instr} {w : CommandWord} {s : State} {rest : List Input} (hi : s.inputs = .command w :: rest)
    (hready : s.cmdReady = true) (hdec : decode (.command w) = .ok i) : step s = exec i { s with inputs := rest } := by
  obtain ⟨hq, hr⟩ := s.cmdReady_iff.mp hready
  rw [decode_command_iff] at hdec
  simp [step, hi, runInput, presentCommand, hr, State.busy, hq, hdec]

theorem tickClock_setInputs (l : List Input) (s : State) :
    ({ s.tickClock with inputs := l } : State) = ({ s with inputs := l } : State).tickClock := by
  unfold State.tickClock
  split <;> rfl

/-- The firing first: the command runs on the ticked state. -/
theorem run_tick_command {i : Instr} {w : CommandWord} {s t : State} {rest : List Input} (hready : s.cmdReady = true)
    (hdec : decode (.command w) = .ok i) (hexec : exec i ({ s with inputs := rest } : State).tickClock = .next t) :
    Host.Core.run Sys2Proof.core 2 { s with inputs := .tick :: .command w :: rest } = .next t := by
  obtain ⟨-, hr⟩ := s.cmdReady_iff.mp hready
  have htick : step { s with inputs := .tick :: .command w :: rest } =
      .next ({ s with inputs := .command w :: rest } : State).tickClock := step_tick rfl hr
  have hticked := (tickClock_cmdReady { s with inputs := .command w :: rest }).trans hready
  have hcommand := step_command (State.tickClock_inputs _) hticked hdec
  rw [tickClock_setInputs, hexec] at hcommand
  exact (run_succ htick).trans (run_succ hcommand)

/-- The command first: a command that leaves the inputs and RST alone is followed by the tick. -/
theorem run_command_tick {i : Instr} {w : CommandWord} {s t : State} {rest : List Input} (hready : s.cmdReady = true)
    (hdec : decode (.command w) = .ok i) (hexec : exec i { s with inputs := .tick :: rest } = .next t)
    (hi : t.inputs = .tick :: rest) (hr : t.rst = false) :
    Host.Core.run Sys2Proof.core 2 { s with inputs := .command w :: .tick :: rest } =
      .next ({ t with inputs := rest } : State).tickClock :=
  have hcommand : step { s with inputs := .command w :: .tick :: rest } = .next t :=
    (step_command (s := { s with inputs := .command w :: .tick :: rest }) rfl hready hdec).trans hexec
  (run_succ hcommand).trans (run_succ (step_tick hi hr))

theorem run_succ_congr (k : Nat) {s t : State} (h : step s = step t) :
    Host.Core.run Sys2Proof.core (k + 1) s = Host.Core.run Sys2Proof.core (k + 1) t := by
  have hcore : Sys2Proof.core.step s = Sys2Proof.core.step t := h
  simp only [Host.Core.run, hcore]

/-- The first step of a coincidence takes the one of the two that the free value names and leaves the other as the next input, as the
first step of that serial order does. -/
theorem run_commandAndTick (s : State) (w : CommandWord) (rest : List Input) :
    Host.Core.run Sys2Proof.core 2 { s with inputs := .commandAndTick w :: rest } =
        Host.Core.run Sys2Proof.core 2 { s with choices := s.choices + 1, inputs := .tick :: .command w :: rest } ∨
      Host.Core.run Sys2Proof.core 2 { s with inputs := .commandAndTick w :: rest } =
        Host.Core.run Sys2Proof.core 2 { s with choices := s.choices + 1, inputs := .command w :: .tick :: rest } := by
  by_cases hfirst : Config.tickFirst s.choices = true
  · exact .inl (run_succ_congr 1 (if_pos hfirst))
  · exact .inr (run_succ_congr 1 (if_neg hfirst))

/-! ### A firing against `CLKRST` (R93) -/

theorem run_tick_clkrst {w : CommandWord} {s : State} (rest : List Input) (hready : s.cmdReady = true)
    (hdec : decode (.command w) = .ok .clkrst) :
    ∃ t, Host.Core.run Sys2Proof.core 2 { s with inputs := .tick :: .command w :: rest } = .next t ∧
      t.inputs = rest ∧ t.sec = 0 ∧ t.min = 0 :=
  have hticked := (tickClock_cmdReady { s with inputs := rest }).trans hready
  ⟨_, run_tick_command hready hdec (exec_clkrst_accepts hticked), State.tickClock_inputs _, rfl, rfl⟩

theorem run_clkrst_tick {w : CommandWord} {s : State} (rest : List Input) (hready : s.cmdReady = true)
    (hdec : decode (.command w) = .ok .clkrst) :
    ∃ t, Host.Core.run Sys2Proof.core 2 { s with inputs := .command w :: .tick :: rest } = .next t ∧
      t.inputs = rest ∧ t.sec = 1 ∧ t.min = 0 :=
  have hr := (s.cmdReady_iff.mp hready).right
  ⟨_, run_command_tick hready hdec (exec_clkrst_accepts hready) rfl hr, rfl, rfl, rfl⟩

/-- Settles O35: the coincidence is one of the two fixed orders, and in each the later of the two decides. -/
theorem tickAgainstClkrst : Obligations.TickAgainstClkrst := by
  intro s w rest hready hdec
  refine ⟨?coincidence, ?tickFirst, ?clkrstFirst⟩
  case coincidence =>
    obtain horder | horder := run_commandAndTick s w rest
    · obtain ⟨t, hrun, hrest, hclock⟩ := run_tick_clkrst (s := { s with choices := s.choices + 1 }) rest hready hdec
      exact ⟨t, horder.trans hrun, hrest, .inl hclock⟩
    · obtain ⟨t, hrun, hrest, hclock⟩ := run_clkrst_tick (s := { s with choices := s.choices + 1 }) rest hready hdec
      exact ⟨t, horder.trans hrun, hrest, .inr hclock⟩
  case tickFirst =>
    obtain ⟨t, hrun, -, hclock⟩ := run_tick_clkrst rest hready hdec
    exact ⟨t, hrun, hclock⟩
  case clkrstFirst =>
    obtain ⟨t, hrun, -, hclock⟩ := run_clkrst_tick rest hready hdec
    exact ⟨t, hrun, hclock⟩

/-! ### A firing against `RDCLK` (R95) -/

theorem run_tick_rdclk {w : CommandWord} {s : State} (rest : List Input) (hready : s.cmdReady = true)
    (hdec : decode (.command w) = .ok .rdclk) :
    ∃ (t : State) (r : ResponseWord),
      Host.Core.run Sys2Proof.core 2 { s with inputs := .tick :: .command w :: rest } = .next t ∧
      t.responses = s.responses ++ [r] ∧ t.clockTotal = (s.clockTotal + 1) % 6000 ∧
      (rminOf r).toNat = t.min.val ∧ (rsecOf r).toNat = t.sec.val ∧ (rmmssOf r).toNat = t.min.val * 100 + t.sec.val := by
  have hticked := (tickClock_cmdReady { s with inputs := rest }).trans hready
  obtain ⟨r, hexec, hfields⟩ := rdclkPresentsClock _ hticked
  exact ⟨_, r, run_tick_command hready hdec hexec, congrArg (· ++ [r]) (State.tickClock_responses _),
    State.tickClock_total { s with inputs := rest }, hfields⟩

theorem run_rdclk_tick {w : CommandWord} {s : State} (rest : List Input) (hready : s.cmdReady = true)
    (hdec : decode (.command w) = .ok .rdclk) :
    ∃ (t : State) (r : ResponseWord),
      Host.Core.run Sys2Proof.core 2 { s with inputs := .command w :: .tick :: rest } = .next t ∧
      t.responses = s.responses ++ [r] ∧ t.clockTotal = (s.clockTotal + 1) % 6000 ∧
      (rminOf r).toNat = s.min.val ∧ (rsecOf r).toNat = s.sec.val ∧ (rmmssOf r).toNat = s.min.val * 100 + s.sec.val := by
  obtain ⟨-, hr⟩ := s.cmdReady_iff.mp hready
  obtain ⟨r, hexec, hfields⟩ := rdclkPresentsClock { s with inputs := .tick :: rest } hready
  exact ⟨_, r, run_command_tick hready hdec hexec rfl hr, State.tickClock_responses _, State.tickClock_total _, hfields⟩

/-- Settles O36: `RDCLK` presents the state it runs on, which is the ticked one or the one the tick then takes. -/
theorem tickAgainstRdclk : Obligations.TickAgainstRdclk := by
  intro s w rest hready hdec
  obtain horder | horder := run_commandAndTick s w rest
  · obtain ⟨t, r, hrun, hresponse, hclock, hfields⟩ :=
      run_tick_rdclk (s := { s with choices := s.choices + 1 }) rest hready hdec
    exact ⟨t, r, horder.trans hrun, hresponse, hclock, .inr hfields⟩
  · obtain ⟨t, r, hrun, hresponse, hclock, hfields⟩ :=
      run_rdclk_tick (s := { s with choices := s.choices + 1 }) rest hready hdec
    exact ⟨t, r, horder.trans hrun, hresponse, hclock, .inl hfields⟩

/-! ### The digits of the packed clock value (R97) -/

/-- Settles O26: the four digits are quotients and remainders by powers of ten, and SEC < 60 takes up the low two of MIN · 100 + SEC. -/
theorem digitsReconstruct : Obligations.DigitsReconstruct := by
  refine ⟨fun n => ?expansion, fun m c v hv => ?packed⟩
  case expansion =>
    obtain ⟨h0, h1, h2, h3⟩ := digit_val n
    omega
  case packed =>
    obtain ⟨h0, h1, h2, h3⟩ := digit_val v
    omega

end Sys2Proof.Machine

/-! Exceptions (60_exceptions): the refusals of a presented command in the order of R111, first those of the port, then those of the
operand checks, and the words that are accepted. -/

namespace Sys2Proof

open Machine

/-! ### The checks of a word (R61) -/

/-- Only the opcodes 1, 2, 4 and 5 have a field that must be 0. -/
theorem decodeCommand_zeroBits_iff (w : CommandWord) : decodeCommand w = .error .zeroBits ↔
    (w.toNat / 2 ^ 20 = 1 ∧ w.toNat / 2 ^ 8 % 2 ^ 12 ≠ 0) ∨
    (w.toNat / 2 ^ 20 = 2 ∧ w.toNat / 2 ^ 16 % 2 ^ 4 ≠ 0) ∨
    ((w.toNat / 2 ^ 20 = 4 ∨ w.toNat / 2 ^ 20 = 5) ∧ w.toNat % 2 ^ 20 ≠ 0) := by
  rw [decodeCommand_eq, Nat.pow_zero, Nat.div_one]
  split_ifs <;> simp only [reduceCtorEq, Except.error.injEq, false_iff, true_iff] <;> omega

/-- The words that fail no check of R61, row by row. -/
theorem decodeCommand_passes_checks {w : CommandWord}
    (h : w.toNat / 2 ^ 8 = 0x1000 ∨
      (w.toNat / 2 ^ 16 = 0x20 ∧ w.toNat % 2 ^ 8 ∈ [1, 2, 4, 8]) ∨
      (w.toNat / 2 ^ 20 = 3 ∧ (w.toNat / 2 ^ 16 % 2 ^ 3 ≤ 3 ∨ w.toNat / 2 ^ 16 % 2 ^ 3 = 7)) ∨
      w.toNat = 0x400000 ∨ w.toNat = 0x500000) :
    ∃ i, decodeCommand w = .ok i ∧ i.check = none := by
  obtain hrow | ⟨hrow, hd⟩ | ⟨hrow, hdpf⟩ | hrow | hrow := h
  · exact ⟨_, (decodeCommand_ok_iff w (.shiftout _)).mpr ⟨by omega, by omega, rfl⟩, rfl⟩
  · rw [← selectField_toNat, ← frameOneHot_iff] at hd
    exact ⟨_, (decodeCommand_ok_iff w (.writeframe _ _)).mpr ⟨by omega, by omega, rfl, rfl⟩, if_pos hd⟩
  · rw [← dpField_toNat, ← dpInDomain_iff] at hdpf
    exact ⟨_, (decodeCommand_ok_iff w (.render _ _ _)).mpr ⟨hrow, rfl, rfl, rfl⟩, if_pos hdpf⟩
  · exact ⟨_, (decodeCommand_ok_iff w .clkrst).mpr ⟨by omega, by omega⟩, rfl⟩
  · exact ⟨_, (decodeCommand_ok_iff w .rdclk).mpr ⟨by omega, by omega⟩, rfl⟩

end Sys2Proof

namespace Sys2Proof.Machine

/-! ### A command that is refused or accepted (R111) -/

theorem exec_refused_of_check {i : Instr} {c : OperandCheck} {s : State} (hready : s.cmdReady = true)
    (hcheck : i.check = some c) : exec i s = .refused (refusalOfCheck c) := by
  obtain ⟨hq, hr⟩ := s.cmdReady_iff.mp hready
  have hoffer (f : State → State) : offerCommand i f s = .refused (refusalOfCheck c) := by
    simp [offerCommand, hr, State.busy, hq, hcheck]
  cases i with
  | writeframe x d => exact hoffer _
  | render n sd dpf => exact hoffer _
  | shiftout b => cases hcheck
  | clkrst => cases hcheck
  | rdclk => cases hcheck
  | tick => cases hcheck

theorem exec_accepts_of_wellFormed {i : Instr} {s : State} (hready : s.cmdReady = true) (hwf : i.wellFormed = true) :
    ∃ t, exec i s = .next t ∧ t.inputs = s.inputs := by
  obtain ⟨-, hr⟩ := s.cmdReady_iff.mp hready
  have hoffer (f : State → State) : offerCommand i f s = .next (f s) := offerCommand_accepts f hready hwf
  cases i with
  | shiftout b => exact ⟨_, hoffer _, rfl⟩
  | writeframe x d => exact ⟨_, hoffer _, rfl⟩
  | render n sd dpf => exact ⟨_, hoffer _, rfl⟩
  | clkrst => exact ⟨_, hoffer _, rfl⟩
  | rdclk => exact ⟨_, hoffer _, rfl⟩
  | tick => exact ⟨_, exec_tick_out_of_reset hr, State.tickClock_inputs s⟩

theorem presentCommand_busy (w : CommandWord) {s : State} (hr : s.rst = false) (hbusy : s.busy = true) :
    presentCommand w s = .refused .idle := by
  simp [presentCommand, hr, hbusy]

theorem presentCommand_refused_of_word {w : CommandWord} {e : WordCheck} {s : State} (hready : s.cmdReady = true)
    (hdec : decodeCommand w = .error e) : presentCommand w s = .refused (refusalOfWord e) := by
  obtain ⟨hq, hr⟩ := s.cmdReady_iff.mp hready
  simp [presentCommand, hr, State.busy, hq, hdec]

/-- Settles O7: BUSY is looked at first, then the word's own checks, then those of the operands; a word that passes them is run. -/
theorem refusalsInOrder : Obligations.RefusalsInOrder := by
  intro s w rest hi hr
  have hport : step s = presentCommand w { s with inputs := rest } := by rw [step, hi]; rfl
  have hready (hidle : s.busy = false) : s.cmdReady = true := s.cmdReady_iff.mpr ⟨s.busy_eq_false_iff.mp hidle, hr⟩
  have hrun {i : Instr} (hidle : s.busy = false) (hdec : decodeCommand w = .ok i) :
      step s = exec i { s with inputs := rest } :=
    step_command hi (hready hidle) ((decode_command_iff w i).mpr hdec)
  refine ⟨fun hbusy => ?idle, fun hidle hop => ?opcodeKnown, fun hidle hzero => ?zeroBits,
    fun hidle hop hdpf => ?dpInDomain, fun hidle hop hd => ?frameOneHot, fun hidle hword => ?accepted⟩
  case idle => exact hport.trans (presentCommand_busy w hr hbusy)
  case opcodeKnown =>
    have hdec := (decodeCommand_opcodeKnown_iff w).mpr hop
    exact hport.trans (presentCommand_refused_of_word (e := .opcodeKnown) (hready hidle) hdec)
  case zeroBits =>
    have hdec := (decodeCommand_zeroBits_iff w).mpr hzero
    exact hport.trans (presentCommand_refused_of_word (e := .zeroBits) (hready hidle) hdec)
  case dpInDomain =>
    have hdec := (decodeCommand_ok_iff w (.render _ _ _)).mpr ⟨hop, rfl, rfl, rfl⟩
    have hreserved : ¬ dpInDomain (w.extractLsb' 16 3) = true := by
      rw [dpInDomain_iff, dpField_toNat]
      omega
    exact (hrun hidle hdec).trans (exec_refused_of_check (c := .dpInDomain) (hready hidle) (if_neg hreserved))
  case frameOneHot =>
    have hdec := (decodeCommand_ok_iff w (.writeframe _ _)).mpr ⟨by omega, by omega, rfl, rfl⟩
    rw [← selectField_toNat, ← frameOneHot_iff] at hd
    exact (hrun hidle hdec).trans (exec_refused_of_check (c := .frameOneHot) (hready hidle) (if_neg hd))
  case accepted =>
    obtain ⟨i, hdec, hcheck⟩ := decodeCommand_passes_checks hword
    rw [hrun hidle hdec]
    exact exec_accepts_of_wellFormed (hready hidle) ((check_eq_none_iff i).mp hcheck)

end Sys2Proof.Machine

/-! Reset, hazards and step counts (70_reset_and_hazards): how many sequencer steps an accepted command takes, and BUSY meanwhile. -/

namespace Sys2Proof.Machine

/-! ### What Q holds after a command and after some turns (R142) -/

theorem busy_iff_q_length_pos (s : State) : s.busy = true ↔ 0 < s.q.length := by
  simp [State.busy, List.length_pos_iff]

/-- Accepting any of the six instructions leaves its expansion in Q: an instruction that completes in its own step has an empty
expansion, and Q was empty. -/
theorem exec_q_eq_expand {i : Instr} {s : State} (hready : s.cmdReady = true) (hwf : i.wellFormed = true) :
    ∃ u, exec i s = .next u ∧ u.q = expand s.cfg i ∧ u.inputs = s.inputs ∧ u.rst = false := by
  obtain ⟨hq, hr⟩ := s.cmdReady_iff.mp hready
  cases i with
  | shiftout b => exact ⟨_, exec_shiftout_accepts b hready, rfl, rfl, hr⟩
  | writeframe x d => exact ⟨_, offerCommand_accepts _ hready hwf, rfl, rfl, hr⟩
  | render n sd dpf => exact ⟨_, offerCommand_accepts _ hready hwf, rfl, rfl, hr⟩
  | clkrst => exact ⟨_, exec_clkrst_accepts hready, hq, rfl, hr⟩
  | rdclk => exact ⟨_, exec_rdclk_accepts hready, hq, rfl, hr⟩
  | tick =>
    exact ⟨_, exec_tick_out_of_reset hr, (State.tickClock_q s).trans hq, State.tickClock_inputs s, (State.tickClock_rst s).trans hr⟩

theorem sequencerStep_iterate_q (k : Nat) {s : State} (hr : s.rst = false) :
    (State.sequencerStep^[k] s).q = s.q.drop k :=
  (congrArg State.q (sequencerStep_iterate k hr)).trans (State.drain_q _ _)

/-- The turns of a schedule, and not its ticks, take entries off Q. -/
theorem run_ticksAndTurns_q {sched : List Input} {s : State} (hi : s.inputs = sched) (hr : s.rst = false)
    (hsched : TicksAndTurns sched) :
    ∃ t, Host.Core.run Sys2Proof.core sched.length s = .next t ∧ t.q = s.q.drop (turns sched) := by
  obtain ⟨t, hrun, hpins, -⟩ := run_ticksAndTurns hi hr hsched
  have hq : t.withoutClock.q = (State.sequencerStep^[turns sched] s.withoutClock).q := congrArg State.q hpins
  exact ⟨t, hrun, hq.trans (sequencerStep_iterate_q _ hr)⟩

/-- Settles O11: acceptance leaves the expansion in Q, each turn of the schedule takes one entry off it, and BUSY is 1 while one is left. -/
theorem busyUntilLastStep : Obligations.BusyUntilLastStep := by
  refine ⟨fun c b x d n sd dpf => ?lengths, fun i s sched hready hwf hsched => ?remaining⟩
  case lengths => exact ⟨shiftSeq_length b, frameSeq_length x d, renderSeq_length c n sd dpf, rfl, rfl, rfl⟩
  case remaining =>
    obtain ⟨u, hexec, huq, hui, hur⟩ := exec_q_eq_expand (s := { s with inputs := sched }) hready hwf
    obtain ⟨t, hrun, htq⟩ := run_ticksAndTurns_q (sched := sched) hui hur hsched
    have hstep := (step_inputsOf_encode i sched hready).trans hexec
    have hlength : t.q.length = (expand s.cfg i).length - turns sched := by rw [htq, huq, List.length_drop]
    have hpos : 0 < t.q.length ↔ turns sched < (expand s.cfg i).length := by rw [hlength, Nat.sub_pos_iff_lt]
    exact ⟨t, (run_succ hstep).trans hrun, hlength, (busy_iff_q_length_pos t).trans hpos⟩

end Sys2Proof.Machine

/-! The encoding (30_encoding): an instruction and the one port word it is read from determine each other. -/

namespace Sys2Proof

open Machine

/-- Settles O1: each instruction's word lies in that instruction's row and carries its operands. -/
theorem decodeEncodeAgree : Obligations.DecodeEncodeAgree := decode_encode

/-- The fields of a word's format cover the word, so the instruction it reads as leaves no bit open. -/
theorem ReadsAs.unique {v w : CommandWord} {i : Instr} (hv : ReadsAs v i) (hw : ReadsAs w i) : v = w := by
  apply BitVec.eq_of_toNat_eq
  cases i with
  | shiftout b =>
    simp only [ReadsAs, field_eq_iff, Nat.pow_zero, Nat.div_one] at hv hw
    omega
  | writeframe s d =>
    simp only [ReadsAs, field_eq_iff, Nat.pow_zero, Nat.div_one] at hv hw
    omega
  | render n sd dpf =>
    simp only [ReadsAs, field_eq_iff, bit_eq_iff, Nat.pow_zero, Nat.div_one] at hv hw
    obtain ⟨hvop, hvn, hvsd, hvdpf⟩ := hv
    obtain ⟨hwop, hwn, hwsd, hwdpf⟩ := hw
    have hsd := hvsd.trans hwsd.symm
    omega
  | clkrst =>
    simp only [ReadsAs] at hv hw
    omega
  | rdclk =>
    simp only [ReadsAs] at hv hw
    omega
  | tick => exact hv.elim

/-- Settles O2: the encoder's word also decodes to i, and only one word of a port does. -/
theorem encodeDecodeAgree : Obligations.EncodeDecodeAgree := by
  intro p i h
  have hencoded := decode_encode i
  cases p with
  | command w =>
    rw [decode_command_iff, decodeCommand_ok_iff] at h
    cases hp : encode i with
    | command v =>
      rw [hp, decode_command_iff, decodeCommand_ok_iff] at hencoded
      rw [hencoded.unique h]
    | tickIn v =>
      cases i with
      | tick => exact h.elim
      | _ => cases hp
  | tickIn v =>
    rw [decode] at h
    split_ifs at h with hv
    rw [← Except.ok.inj h, hv]
    rfl

/-- Settles O5: the words are closed, so the decoder and the encoder are evaluated on them. -/
theorem specWordsDecode : Obligations.SpecWordsDecode :=
  ⟨rfl, rfl, rfl, rfl, rfl, rfl, rfl, rfl, rfl⟩

end Sys2Proof

/-! What only the sequencer and RST write (40 R77): the view of a state that holds the lines, SR, OUT and the pin trace, and what a
micro-operation, an instruction and a step do to it; the queue and frame invariants (10_state R31), which are facts of that view and Q. -/

namespace Sys2Proof.Machine

/-! ### The view of the pins (R45, R77) -/

/-- The state with all left out but the lines, SR, OUT, the configuration and the pin trace. -/
def State.pinView (s : State) : State :=
  { s.withoutClock with q := [], rst := false, choices := 0, responses := [] }

theorem pinView_eq_iff (s t : State) : t.pinView = s.pinView ↔
    t.latch = s.latch ∧ t.sclk = s.sclk ∧ t.sdata = s.sdata ∧ t.sr = s.sr ∧ t.out = s.out ∧ t.cfg = s.cfg ∧
      t.pinTrace = s.pinTrace := by
  simp [State.ext_iff, State.pinView, State.withoutClock]

theorem perform_setPorts (m : MicroOp) (q : List MicroOp) (r : Bool) (c : Nat) (l : List ResponseWord) (s : State) :
    ({ s with q := q, rst := r, choices := c, responses := l } : State).perform m =
      { s.perform m with q := q, rst := r, choices := c, responses := l } := by
  cases m with
  | dat v => rfl
  | clk v => simp only [perform_clk]
  | lat v => simp only [perform_lat]
  | dwell p => rfl

theorem perform_pinView (m : MicroOp) (s : State) : (s.perform m).pinView = s.pinView.perform m := by
  simp only [State.pinView, perform_withoutClock, perform_setPorts]

theorem drain_pinView (ops : List MicroOp) (s : State) : (s.drain ops).pinView = s.pinView.drain ops := by
  induction ops generalizing s with
  | nil => rfl
  | cons m rest ih => rw [State.drain_cons, ih, perform_pinView, State.drain_cons]

/-- What the pending work will do to the pins depends on nothing but Q and the pins. -/
theorem finish_pinView (s : State) : s.finish.pinView = s.pinView.drain s.q := drain_pinView s.q _

theorem latched_mem_pinView (w : Frame) (s : State) : .latched w ∈ s.pinView.trace ↔ .latched w ∈ s.trace := by
  simp [State.pinView, State.withoutClock, State.pinTrace, Event.onPins]

/-! ### Instructions leave the pins alone -/

theorem tickClock_pinView (s : State) : s.tickClock.pinView = s.pinView :=
  congrArg (fun u : State => { u with q := [], rst := false, choices := 0, responses := [] }) (tickClock_withoutClock s)

theorem writeClock_pinView (m : Fin minMod) (c : Fin secMod) (s : State) : (s.writeClock m c).pinView = s.pinView := by
  simp [State.pinView, State.withoutClock, State.pinTrace, Event.onPins]

theorem readClock_pinView (s : State) : s.readClock.pinView = s.pinView := by
  simp [State.pinView, State.withoutClock, State.pinTrace, Event.onPins]

theorem exec_pinView {i : Instr} {s t : State} (h : exec i s = .next t) : t.pinView = s.pinView := by
  obtain ⟨-, rfl⟩ | ⟨-, -, rfl | rfl | rfl⟩ | ⟨-, rfl⟩ := exec_cases h
  · rfl
  · rfl
  · exact writeClock_pinView 0 0 s
  · exact readClock_pinView s
  · exact tickClock_pinView s

/-- An instruction leaves Q as it is, or is accepted by a ready block and loads its expansion. -/
theorem exec_q {i : Instr} {s t : State} (h : exec i s = .next t) :
    t.q = s.q ∨ (s.q = [] ∧ i.wellFormed = true ∧ t.q = expand s.cfg i) := by
  obtain ⟨-, rfl⟩ | ⟨hready, hwf, rfl | rfl | rfl⟩ | ⟨-, rfl⟩ := exec_cases h
  · exact .inl rfl
  · obtain ⟨hq, -⟩ := s.cmdReady_iff.mp hready
    exact .inr ⟨hq, hwf, rfl⟩
  · exact .inl rfl
  · exact .inl rfl
  · exact .inl s.tickClock_q

theorem exec_ports {i : Instr} {s t : State} (h : exec i s = .next t) :
    t.rst = s.rst ∧ t.inputs = s.inputs ∧ t.choices = s.choices := by
  obtain ⟨-, rfl⟩ | ⟨-, -, rfl | rfl | rfl⟩ | ⟨-, rfl⟩ := exec_cases h
  · exact ⟨rfl, rfl, rfl⟩
  · exact ⟨rfl, rfl, rfl⟩
  · exact ⟨rfl, rfl, rfl⟩
  · exact ⟨rfl, rfl, rfl⟩
  · exact ⟨s.tickClock_rst, s.tickClock_inputs, s.tickClock_choices⟩

/-! ### The queue invariant (R31 (c), (d)) -/

theorem restLevels_congr {s t : State} (h : t.pinView = s.pinView) : t.restLevels ↔ s.restLevels := by
  obtain ⟨hlatch, hsclk, -⟩ := (pinView_eq_iff s t).mp h
  rw [State.restLevels, State.restLevels, hlatch, hsclk]

theorem finish_pinView_congr {s t : State} (h : t.pinView = s.pinView) (hq : t.q = s.q) :
    t.finish.pinView = s.finish.pinView := by
  rw [finish_pinView, finish_pinView, h, hq]

theorem State.QueueInv.congr {s t : State} (hinv : s.QueueInv) (h : t.pinView = s.pinView) (hq : t.q = s.q) : t.QueueInv := by
  obtain ⟨-, -, -, -, -, hcfg, -⟩ := (pinView_eq_iff s t).mp h
  obtain ⟨hsuffix, hrest⟩ := hinv
  refine ⟨?_, (restLevels_congr (finish_pinView_congr h hq)).mpr hrest⟩
  rw [hq, hcfg]
  exact hsuffix

theorem finish_of_idle {s : State} (hq : s.q = []) : s.finish = s := by
  simp [State.ext_iff, State.finish, hq]

/-- Q loaded on the pins of s will do to them what draining it from s does. -/
theorem finish_of_loaded {s t : State} (h : t.pinView = s.pinView) : t.finish.pinView = (s.drain t.q).pinView := by
  rw [finish_pinView, h, drain_pinView]

theorem drain_expand_restLevels (c : Config) (i : Instr) {s : State} (hrest : s.restLevels) :
    (s.drain (expand c i)).restLevels := by
  obtain ⟨hsclk, hlatch⟩ := hrest
  cases i with
  | shiftout b => rw [expand, drain_shiftSeq b hsclk]; exact ⟨hsclk, hlatch⟩
  | writeframe x d => rw [expand, drain_frameSeq x d hsclk]; exact ⟨hsclk, rfl⟩
  | render n sd dpf => rw [expand, drain_renderSeq c n sd dpf ⟨hsclk, hlatch⟩]; exact ⟨hsclk, hlatch⟩
  | clkrst => exact ⟨hsclk, hlatch⟩
  | rdclk => exact ⟨hsclk, hlatch⟩
  | tick => exact ⟨hsclk, hlatch⟩

theorem State.QueueInv.restLevels_of_idle {s : State} (hinv : s.QueueInv) (hq : s.q = []) : s.restLevels := by
  obtain ⟨-, hrest⟩ := hinv
  rwa [finish_of_idle hq] at hrest

theorem State.QueueInv.sequencerStep {s : State} (hinv : s.QueueInv) : s.sequencerStep.QueueInv := by
  obtain ⟨⟨i, hwf, k, hk⟩, hrest⟩ := hinv
  refine ⟨⟨i, hwf, ?_⟩, s.finish_sequencerStep ▸ hrest⟩
  obtain h | ⟨m, rest, -, hq, h⟩ := s.sequencerStep_cases
  · exact ⟨k, by rw [h, hk]⟩
  · refine ⟨k + 1, ?_⟩
    rw [h, State.perform_q, State.perform_cfg, ← List.tail_drop, ← hk, hq]
    rfl

theorem State.QueueInv.exec {i : Instr} {s t : State} (hinv : s.QueueInv) (h : exec i s = .next t) : t.QueueInv := by
  have hview := exec_pinView h
  obtain hq | ⟨hidle, hwf, hq⟩ := exec_q h
  · exact hinv.congr hview hq
  · obtain ⟨-, -, -, -, -, hcfg, -⟩ := (pinView_eq_iff s t).mp hview
    refine ⟨⟨i, hwf, 0, by rw [hq, hcfg]; rfl⟩, (restLevels_congr (finish_of_loaded hview)).mpr ?_⟩
    rw [hq]
    exact drain_expand_restLevels s.cfg i (hinv.restLevels_of_idle hidle)

theorem queueInv_assertReset (s : State) : s.assertReset.QueueInv := by
  refine ⟨⟨.clkrst, rfl, 0, s.assertReset_q⟩, ?_⟩
  rw [finish_of_idle s.assertReset_q]
  exact ⟨s.assertReset_sclk, s.assertReset_latch⟩

theorem State.QueueInv.moves {r : Prop} {s t : State} (hinv : s.QueueInv) (h : Moves r s t) : t.QueueInv := by
  cases h with
  | still => exact hinv
  | sequencer => exact hinv.sequencerStep
  | exec h => exact hinv.exec h
  | assertReset => exact queueInv_assertReset s
  | releaseReset => exact hinv.congr rfl rfl

/-- Settles O47: taking an input leaves Q and the pins, and each agent's move keeps the invariant; a command is accepted only in an idle
block, whose lines are at rest, and its expansion leaves them so. -/
theorem queueInvariantKept : Obligations.QueueInvariantKept := by
  intro s t hinv h
  obtain ⟨l, c, -, hmove⟩ := step_moves h
  have hsettled : ({ s with inputs := l, choices := c } : State).QueueInv := hinv.congr rfl rfl
  exact hsettled.moves hmove

/-! ### Latched frames (R69) -/

/-- R69 for a move from s to t: OUT takes SR, and `Latched` of it is emitted, exactly when LATCH rises. -/
def LatchRule (s t : State) : Prop :=
  t.out = (if s.latch = false ∧ t.latch = true then s.sr else s.out) ∧
  t.trace.filter Event.isLatched =
    s.trace.filter Event.isLatched ++ if s.latch = false ∧ t.latch = true then [.latched s.sr] else []

theorem perform_latchRule (m : MicroOp) (s : State) : LatchRule s (s.perform m) := by
  cases m with
  | dat v => cases hl : s.latch <;> simp [LatchRule, State.perform, State.pinWrite, Event.isLatched, hl]
  | clk v => cases hl : s.latch <;> simp [LatchRule, perform_clk, Event.isLatched, hl]
  | lat v => cases hl : s.latch <;> cases v <;> simp [LatchRule, perform_lat, Event.isLatched, hl]
  | dwell p => cases hl : s.latch <;> simp [LatchRule, State.perform, Event.isLatched, hl]

theorem sequencerStep_latchRule (s : State) : LatchRule s s.sequencerStep := by
  obtain h | ⟨m, rest, -, -, h⟩ := s.sequencerStep_cases
  · rw [h]
    cases hl : s.latch <;> simp [LatchRule, hl]
  · rw [h]
    exact perform_latchRule m { s with q := rest }

theorem latched_mem_filter (w : Frame) (l : List Event) : .latched w ∈ l.filter Event.isLatched ↔ .latched w ∈ l := by
  simp [Event.isLatched]

theorem latched_not_mem_byteEvents (w : Frame) (b : Byte) : .latched w ∉ byteEvents b := by
  simp [byteEvents, bitEvents]

theorem latched_mem_frameEvents (w : Frame) (x d : Byte) : .latched w ∈ frameEvents x d ↔ w = frameWord x d := by
  simp [frameEvents, latched_not_mem_byteEvents]

theorem frameOneHot_dsel (p : Fin ndigits) : frameOneHot (dsel p) = true := by
  revert p; decide

theorem frameOneHot_iff_mem (d : Byte) : frameOneHot d = true ↔ d ∈ [0x01#8, 0x02#8, 0x04#8, 0x08#8] := by
  revert d; decide

/-- Each frame of a well-formed command selects one position: `WRITEFRAME` is checked for it, `RENDER` sends the masks. -/
theorem latched_drain_expand {c : Config} {i : Instr} {s : State} {w : Frame} (hwf : i.wellFormed = true)
    (hrest : s.restLevels) (h : .latched w ∈ (s.drain (expand c i)).trace) :
    .latched w ∈ s.trace ∨ frameOneHot (digitSelectOf w) = true := by
  have hsclk := hrest.left
  cases i with
  | shiftout b =>
    rw [expand, drain_shiftSeq b hsclk, List.mem_append] at h
    exact .inl (h.resolve_right (latched_not_mem_byteEvents w b))
  | writeframe x d =>
    rw [expand, drain_frameSeq x d hsclk, List.mem_append, latched_mem_frameEvents] at h
    refine h.imp_right fun hw => ?_
    rw [hw, digitSelectOf_frameWord, frameOneHot_iff_mem]
    exact (writeframe_wellFormed_iff x d).mp hwf
  | render n sd dpf =>
    rw [expand, drain_renderSeq c n sd dpf hrest, List.mem_append, List.mem_flatMap] at h
    refine h.imp_right fun ⟨p, _, hp⟩ => ?_
    have hw : w = frameWord (pattern c n sd dpf p) (dsel p) := by
      simpa [latched_mem_frameEvents] using hp
    rw [hw, digitSelectOf_frameWord]
    exact frameOneHot_dsel p
  | clkrst => exact .inl h
  | rdclk => exact .inl h
  | tick => exact .inl h

/-! ### The frame invariant (R31 (e)) -/

theorem latched_mem_congr {s t : State} (h : t.pinView = s.pinView) (w : Frame) :
    .latched w ∈ t.trace ↔ .latched w ∈ s.trace := by
  rw [← latched_mem_pinView, h, latched_mem_pinView]

/-- What keeps the pins keeps the second half of the invariant; the first is about Q as well. -/
theorem State.FrameInv.of_pinView {s t : State} (hinv : s.FrameInv) (h : t.pinView = s.pinView)
    (hpending : ∀ w, .latched w ∈ t.finish.trace → .latched w ∈ s.finish.trace ∨ frameOneHot (digitSelectOf w) = true) :
    t.FrameInv := by
  obtain ⟨hframes, hout⟩ := hinv
  obtain ⟨-, -, -, -, houts, -, -⟩ := (pinView_eq_iff s t).mp h
  refine ⟨fun w hw => (hpending w hw).elim (hframes w) id, fun w hw => ?_⟩
  rw [latched_mem_congr h, houts]
  exact hout w ((latched_mem_congr h w).mp hw)

theorem State.FrameInv.congr {s t : State} (hinv : s.FrameInv) (h : t.pinView = s.pinView) (hq : t.q = s.q) : t.FrameInv :=
  hinv.of_pinView h fun w hw => .inl ((latched_mem_congr (finish_pinView_congr h hq) w).mp hw)

theorem State.FrameInv.exec {i : Instr} {s t : State} (hinv : s.FrameInv) (hqueue : s.QueueInv)
    (h : exec i s = .next t) : t.FrameInv := by
  have hview := exec_pinView h
  obtain hq | ⟨hidle, hwf, hq⟩ := exec_q h
  · exact hinv.congr hview hq
  · refine hinv.of_pinView hview fun w hw => ?_
    rw [latched_mem_congr (finish_of_loaded hview), hq] at hw
    rw [finish_of_idle hidle]
    exact latched_drain_expand hwf (hqueue.restLevels_of_idle hidle) hw

theorem State.FrameInv.sequencerStep {s : State} (hinv : s.FrameInv) : s.sequencerStep.FrameInv := by
  obtain ⟨hframes, hlatched⟩ := hinv
  refine ⟨s.finish_sequencerStep ▸ hframes, ?_⟩
  obtain ⟨hout, htrace⟩ := sequencerStep_latchRule s
  intro w hw
  rw [← latched_mem_filter, htrace] at hw
  rw [← latched_mem_filter, htrace, hout]
  split_ifs at hw ⊢ with hrise
  · exact List.mem_append_right _ List.mem_cons_self
  · rw [List.append_nil, latched_mem_filter] at hw ⊢
    exact hlatched w hw

theorem State.FrameInv.moves {s t : State} (hinv : s.FrameInv) (hqueue : s.QueueInv) (h : Moves False s t) :
    t.FrameInv := by
  cases h with
  | still => exact hinv
  | sequencer => exact hinv.sequencerStep
  | exec h => exact hinv.exec hqueue h
  | assertReset _ h => exact h.elim
  | releaseReset => exact hinv.congr rfl rfl

theorem Moves.inputs {r : Prop} {s t : State} (h : Moves r s t) : t.inputs = s.inputs := by
  cases h with
  | still => rfl
  | sequencer => exact sequencerStep_inputs s
  | exec h =>
    obtain ⟨-, hinputs, -⟩ := exec_ports h
    exact hinputs
  | assertReset => exact s.assertReset_inputs
  | releaseReset => rfl

/-- Settles O49: without RST the frames yet to be latched change only when an idle block accepts a command, whose frames select one
position each; OUT and the frames latched change together. -/
theorem frameInvariantKept : Obligations.FrameInvariantKept := by
  intro s t hqueue hinv hreset h
  obtain ⟨l, c, hl, hmove⟩ := step_moves h
  have hqueue' : ({ s with inputs := l, choices := c } : State).QueueInv := hqueue.congr rfl rfl
  have hinv' : ({ s with inputs := l, choices := c } : State).FrameInv := hinv.congr rfl rfl
  have hreset' : t.noReset := by
    rw [State.noReset, hmove.inputs]
    intro hmem
    exact hreset (by simpa using hl _ hmem)
  rw [eq_false hreset] at hmove
  exact ⟨hinv'.moves hqueue' hmove, hreset'⟩

end Sys2Proof.Machine

/-! What one step changes and what it leaves (40 R68, R69, R77; 70 R127): the downstream register's edges, the frames of the
instructions, the reset levels, the configuration and the trace; and what the invariants of 10_state R31 say of a state. -/

namespace Sys2Proof.Machine

/-! ### Who moved (R77) -/

theorem presentCommand_pinView {w : CommandWord} {s t : State} (h : presentCommand w s = .next t) : t.pinView = s.pinView := by
  obtain ⟨-, rfl⟩ | ⟨i, -, h⟩ := presentCommand_next h
  · rfl
  · exact exec_pinView h

theorem runInput_pinView {x : Input} {s t : State} (hturn : x ≠ .sequencer) (hreset : x ≠ .assertReset)
    (h : runInput x s = .next t) : t.pinView = s.pinView := by
  cases x with
  | command w => exact presentCommand_pinView h
  | tick => exact exec_pinView (i := .tick) h
  | commandAndTick w =>
    simp only [runInput, presentBoth] at h
    split at h
    · exact (exec_pinView (i := .tick) h).trans rfl
    · exact (presentCommand_pinView h).trans rfl
  | sequencer => exact absurd rfl hturn
  | assertReset => exact absurd rfl hreset
  | releaseReset =>
    injection h with h
    exact h ▸ rfl

/-- A step is a turn of the sequencer, the assertion of RST, or leaves the pins alone. -/
theorem step_agents {s t : State} (h : step s = .next t) :
    (∃ l, t = ({ s with inputs := l } : State).sequencerStep) ∨
    (∃ l, s.inputs = .assertReset :: l ∧ t = ({ s with inputs := l } : State).assertReset) ∨
    t.pinView = s.pinView := by
  unfold step at h
  split at h
  · injection h with h
    exact .inl ⟨s.inputs, h.symm⟩
  · next x l hi =>
    by_cases hturn : x = .sequencer
    · subst hturn
      injection h with h
      exact .inl ⟨l, h.symm⟩
    · by_cases hreset : x = .assertReset
      · subst hreset
        injection h with h
        exact .inr (.inl ⟨l, hi, h.symm⟩)
      · exact .inr (.inr ((runInput_pinView hturn hreset h).trans rfl))

/-- Settles O22: every other input leaves the view of the pins. -/
theorem oneWriterOfTheLines : Obligations.OneWriterOfTheLines := by
  intro s t x rest hi hturn hreset h
  rw [step, hi] at h
  have hview : t.pinView = s.pinView := (runInput_pinView hturn hreset h).trans rfl
  obtain ⟨hlatch, hsclk, hsdata, hsr, hout, -, htrace⟩ := (pinView_eq_iff s t).mp hview
  exact ⟨hlatch, hsclk, hsdata, hsr, hout, htrace⟩

/-! ### The edges of LATCH and SCLK (R68, R69) -/

theorem pinTrace_filter_isLatched (s : State) : s.pinTrace.filter Event.isLatched = s.trace.filter Event.isLatched := by
  have honPins : ∀ e : Event, (e.isLatched && e.onPins) = e.isLatched := fun e => by cases e <;> rfl
  simp only [State.pinTrace, List.filter_filter, honPins]

theorem latchRule_of_pinView {s t : State} (h : t.pinView = s.pinView) : LatchRule s t := by
  obtain ⟨hlatch, -, -, -, hout, -, htrace⟩ := (pinView_eq_iff s t).mp h
  have hlatched : t.trace.filter Event.isLatched = s.trace.filter Event.isLatched := by
    rw [← pinTrace_filter_isLatched, htrace, pinTrace_filter_isLatched]
  cases hl : s.latch <;> simp [LatchRule, hlatch, hout, hlatched, hl]

/-- Settles O20: a turn follows the rule by its micro-operation, the other inputs leave the pins, and RST with LATCH high leaves OUT. -/
theorem outFollowsLatchEdges : Obligations.OutFollowsLatchEdges := by
  have hrule {s t : State} (h : step s = .next t) (hreset : ¬ ∃ l, s.inputs = .assertReset :: l) : LatchRule s t := by
    obtain ⟨l, rfl⟩ | ⟨l, hi, -⟩ | hview := step_agents h
    · exact sequencerStep_latchRule { s with inputs := l }
    · exact absurd ⟨l, hi⟩ hreset
    · exact latchRule_of_pinView hview
  refine ⟨fun s t hhead h => hrule h fun ⟨l, hi⟩ => hhead (by rw [hi]; rfl), fun s t hrise h => ?_⟩
  by_cases hreset : ∃ l, s.inputs = .assertReset :: l
  · obtain ⟨l, hi⟩ := hreset
    rw [step, hi] at h
    injection h with h
    subst h
    have hhigh : s.latch = true := by simpa [runInput] using hrise
    simp [hhigh]
  · obtain ⟨hout, htrace⟩ := hrule h hreset
    rw [if_neg hrise] at hout htrace
    exact ⟨hout, htrace.trans (List.append_nil _)⟩

/-- R68 for a move from s to t: SR shifts in SDATA exactly when SCLK rises, and OUT stays then. -/
def ShiftRule (s t : State) : Prop :=
  (t.sr = if s.sclk = false ∧ t.sclk = true then s.sr.extractLsb' 0 15 ++ BitVec.ofBool s.sdata else s.sr) ∧
  (s.sclk = false ∧ t.sclk = true → t.out = s.out)

theorem shiftRule_of_not_rising {s t : State} (hrise : ¬ (s.sclk = false ∧ t.sclk = true)) (hsr : t.sr = s.sr) :
    ShiftRule s t :=
  ⟨by rw [if_neg hrise, hsr], fun h => absurd h hrise⟩

theorem perform_shiftRule (m : MicroOp) (s : State) : ShiftRule s (s.perform m) := by
  cases m with
  | dat v => exact shiftRule_of_not_rising (by simp [State.perform, State.pinWrite]) rfl
  | clk v => simp [ShiftRule, perform_clk]
  | lat v => exact shiftRule_of_not_rising (by simp [perform_lat]) (by rw [perform_lat])
  | dwell p => exact shiftRule_of_not_rising (by simp [State.perform]) rfl

/-- Settles O21: only `CLK(1)` from SCLK = 0 makes the edge; RST drives SCLK low and keeps SR. -/
theorem shiftStageFollowsClockEdges : Obligations.ShiftStageFollowsClockEdges := by
  intro s t h
  obtain ⟨l, rfl⟩ | ⟨l, -, rfl⟩ | hview := step_agents h
  · obtain h | ⟨m, rest, -, -, h⟩ := State.sequencerStep_cases { s with inputs := l }
    · rw [h]
      exact shiftRule_of_not_rising (by simp) rfl
    · rw [h]
      exact perform_shiftRule m { s with inputs := l, q := rest }
  · exact shiftRule_of_not_rising (by simp) (State.assertReset_sr _)
  · obtain ⟨-, hsclk, -, hsr, -, -, -⟩ := (pinView_eq_iff s t).mp hview
    exact shiftRule_of_not_rising (by simp [hsclk]) hsr

/-! ### The instructions (R23 and the rules of each operation) -/

theorem offer_load_frame {i : Instr} {ops : List MicroOp} {s t : State} (h : offerCommand i (State.load ops) s = .next t) :
    t.sec = s.sec ∧ t.min = s.min ∧ t.responses = s.responses ∧ t.trace = s.trace := by
  obtain ⟨-, rfl⟩ | ⟨-, -, rfl⟩ := offerCommand_next h
  · exact ⟨rfl, rfl, rfl, rfl⟩
  · exact ⟨rfl, rfl, rfl, rfl⟩

/-- Settles O41: the pins by their view, the ports as in every instruction, and the rest by what each one's effect writes. -/
theorem instructionFrames : Obligations.InstructionFrames := by
  intro i s t h
  obtain ⟨hlatch, hsclk, hsdata, hsr, hout, hcfg, htrace⟩ := (pinView_eq_iff s t).mp (exec_pinView h)
  obtain ⟨hrst, hinputs, hchoices⟩ := exec_ports h
  refine ⟨⟨hlatch, hsclk, hsdata, hsr, hout, hrst, hcfg, hinputs, hchoices, htrace⟩, ?_⟩
  cases i with
  | shiftout b => exact offer_load_frame (i := .shiftout b) h
  | writeframe x d => exact offer_load_frame (i := .writeframe x d) h
  | render n sd dpf => exact offer_load_frame (i := .render n sd dpf) h
  | clkrst =>
    obtain ⟨-, rfl⟩ | ⟨-, -, rfl⟩ := offerCommand_next (i := .clkrst) h
    · exact ⟨rfl, rfl⟩
    · exact ⟨rfl, rfl⟩
  | rdclk =>
    obtain ⟨-, rfl⟩ | ⟨-, -, rfl⟩ := offerCommand_next (i := .rdclk) h
    · exact ⟨rfl, rfl, rfl⟩
    · exact ⟨rfl, rfl, rfl⟩
  | tick =>
    obtain ⟨-, rfl⟩ | ⟨-, rfl⟩ := takeEvent_next h
    · exact ⟨rfl, rfl⟩
    · exact ⟨s.tickClock_q, s.tickClock_responses⟩

theorem offerCommand_next_of_not_reset {i : Instr} {f : State → State} {s t : State} (hr : s.rst = false)
    (h : offerCommand i f s = .next t) : s.q = [] ∧ t = f s := by
  obtain ⟨hrst, -⟩ | ⟨hready, -, ht⟩ := offerCommand_next h
  · exact absurd (hr.symm.trans hrst) (by decide)
  · exact ⟨(s.cmdReady_iff.mp hready).left, ht⟩

theorem offer_load_busy {i : Instr} {ops : List MicroOp} {s t : State} (hr : s.rst = false) (hops : 0 < ops.length)
    (h : offerCommand i (State.load ops) s = .next t) : t.busy = true := by
  obtain ⟨-, rfl⟩ := offerCommand_next_of_not_reset hr h
  exact (busy_iff_q_length_pos _).mpr hops

theorem offer_not_busy {i : Instr} {f : State → State} {s t : State} (hr : s.rst = false) (hf : (f s).q = s.q)
    (h : offerCommand i f s = .next t) : t.busy = false := by
  obtain ⟨hq, rfl⟩ := offerCommand_next_of_not_reset hr h
  exact ((f s).busy_eq_false_iff).mpr (hf.trans hq)

/-- Settles O10: the expansions of the queued commands are not empty, and the other two commands are accepted with Q empty and
leave it so. -/
theorem busyFollowsCommands : Obligations.BusyFollowsCommands := by
  intro i s t hr h
  cases i with
  | shiftout b => exact iff_of_true (offer_load_busy (i := .shiftout b) hr (shiftSeq_length b ▸ by decide) h) trivial
  | writeframe x d => exact iff_of_true (offer_load_busy (i := .writeframe x d) hr (frameSeq_length x d ▸ by decide) h) trivial
  | render n sd dpf =>
    exact iff_of_true (offer_load_busy (i := .render n sd dpf) hr (renderSeq_length s.cfg n sd dpf ▸ by decide) h) trivial
  | clkrst => simp [offer_not_busy (i := .clkrst) hr (State.writeClock_q 0 0 s) h]
  | rdclk => simp [offer_not_busy (i := .rdclk) hr s.readClock_q h]
  | tick =>
    rw [exec_tick_out_of_reset hr] at h
    injection h with h
    simp [← h, State.busy]

/-! ### Every step: the reset levels, the configuration, the trace -/

theorem exec_of_reset {i : Instr} {s t : State} (hr : s.rst = true) (h : exec i s = .next t) : t = s := by
  obtain ⟨-, ht⟩ | ⟨hready, -⟩ | ⟨hrst, -⟩ := exec_cases h
  · exact ht
  · exact absurd (hr.symm.trans (s.cmdReady_iff.mp hready).right) (by decide)
  · exact absurd (hr.symm.trans hrst) (by decide)

theorem State.ResetInv.moves {r : Prop} {s t : State} (hinv : s.ResetInv) (h : Moves r s t) : t.ResetInv := by
  intro hr
  cases h with
  | still => exact hinv hr
  | sequencer =>
    rw [sequencerStep_rst] at hr
    rw [State.sequencerStep_reset hr]
    exact hinv hr
  | exec h =>
    obtain ⟨hrst, -⟩ := exec_ports h
    rw [hrst] at hr
    rw [exec_of_reset hr h]
    exact hinv hr
  | assertReset => simp
  | releaseReset => cases hr

/-- Settles O46: under RST only its own assertion and release change anything. -/
theorem resetLevelsHeld : Obligations.ResetLevelsHeld := by
  intro s t hinv h
  obtain ⟨l, c, -, hmove⟩ := step_moves h
  exact State.ResetInv.moves (s := { s with inputs := l, choices := c }) hinv hmove

theorem Moves.cfg {r : Prop} {s t : State} (h : Moves r s t) : t.cfg = s.cfg := by
  cases h with
  | still => rfl
  | sequencer =>
    obtain h | ⟨m, rest, -, -, h⟩ := s.sequencerStep_cases
    · rw [h]
    · rw [h, State.perform_cfg]
  | exec h =>
    obtain ⟨-, -, -, -, -, hcfg, -⟩ := (pinView_eq_iff s t).mp (exec_pinView h)
    exact hcfg
  | assertReset => exact s.assertReset_cfg
  | releaseReset => rfl

/-- Settles O52: no agent's move writes the configuration. -/
theorem configurationConstant : Obligations.ConfigurationConstant := by
  intro s t h
  obtain ⟨l, c, -, hmove⟩ := step_moves h
  exact hmove.cfg

/-- What a move from s to t may add to the trace and to the responses. -/
def Outputs (s t : State) (es : List Event) (rs : List ResponseWord) : Prop :=
  t.trace = s.trace ++ es ∧ t.responses = s.responses ++ rs ∧ rs.length ≤ 1 ∧
    (es = [] ∨ (∃ e, es = [e]) ∨ es = [.pin .latch true, .latched s.sr]) ∧
    (rs ≠ [] → es = [.clockRead s.min s.sec])

theorem outputs_nothing {s t : State} (htrace : t.trace = s.trace) (hresp : t.responses = s.responses) :
    Outputs s t [] [] := by
  simp [Outputs, htrace, hresp]

theorem outputs_event {s t : State} {e : Event} (htrace : t.trace = s.trace ++ [e]) (hresp : t.responses = s.responses) :
    Outputs s t [e] [] := by
  simp [Outputs, htrace, hresp]

theorem perform_outputs (m : MicroOp) (s : State) : ∃ es, Outputs s (s.perform m) es [] := by
  cases m with
  | dat v => exact ⟨_, outputs_event rfl rfl⟩
  | clk v => exact ⟨_, outputs_event (by rw [perform_clk]) (by simp)⟩
  | dwell p => exact ⟨_, outputs_event rfl rfl⟩
  | lat v =>
    by_cases hrise : s.latch = false ∧ v = true
    · refine ⟨[.pin .latch true, .latched s.sr], ?_⟩
      simp [Outputs, perform_lat, hrise]
    · exact ⟨_, outputs_event (e := .pin .latch v) (by simp [perform_lat, hrise]) (by simp)⟩

theorem exec_outputs {i : Instr} {s t : State} (h : exec i s = .next t) : ∃ es rs, Outputs s t es rs := by
  obtain ⟨-, rfl⟩ | ⟨-, -, rfl | rfl | rfl⟩ | ⟨-, rfl⟩ := exec_cases h
  · exact ⟨_, _, outputs_nothing rfl rfl⟩
  · exact ⟨_, _, outputs_nothing rfl rfl⟩
  · exact ⟨_, _, outputs_event rfl rfl⟩
  · exact ⟨_, _, rfl, rfl, Nat.le_refl 1, .inr (.inl ⟨_, rfl⟩), fun _ => rfl⟩
  · exact ⟨_, _, outputs_event s.tickClock_trace s.tickClock_responses⟩

theorem Moves.outputs {r : Prop} {s t : State} (h : Moves r s t) : ∃ es rs, Outputs s t es rs := by
  cases h with
  | still => exact ⟨_, _, outputs_nothing rfl rfl⟩
  | sequencer =>
    obtain h | ⟨m, rest, -, -, h⟩ := s.sequencerStep_cases
    · exact ⟨_, _, outputs_nothing (by rw [h]) (by rw [h])⟩
    · obtain ⟨es, hes⟩ := perform_outputs m { s with q := rest }
      exact ⟨es, [], h ▸ hes⟩
  | exec h => exact exec_outputs h
  | assertReset =>
    cases hl : s.latch with
    | true => exact ⟨_, _, outputs_nothing (by simp [hl]) s.assertReset_responses⟩
    | false => exact ⟨_, _, outputs_event (by simp [hl]; rfl) s.assertReset_responses⟩
  | releaseReset => exact ⟨_, _, outputs_nothing rfl rfl⟩

/-- Settles O53: settling the inputs outputs nothing, and each agent's move at most one event and, by `RDCLK` only, a response, but for
a rising LATCH. -/
theorem traceOnlyGrows : Obligations.TraceOnlyGrows := by
  intro s t h
  obtain ⟨l, c, -, hmove⟩ := step_moves h
  exact hmove.outputs

/-! ### What the invariants say (R31) -/

theorem expand_length_le (c : Config) (i : Instr) : (expand c i).length ≤ 204 := by
  cases i with
  | shiftout b => rw [expand, shiftSeq_length]; decide
  | writeframe x d => rw [expand, frameSeq_length]; decide
  | render n sd dpf => rw [expand, renderSeq_length]
  | clkrst => exact Nat.zero_le _
  | rdclk => exact Nat.zero_le _
  | tick => exact Nat.zero_le _

/-- Settles O48: an idle block has nothing left to perform, so its lines are at the levels the invariant ends in. -/
theorem queueInvariantMeaning : Obligations.QueueInvariantMeaning := by
  intro s hinv
  have hidle := hinv.restLevels_of_idle
  obtain ⟨⟨i, -, k, hq⟩, -⟩ := hinv
  have hsuffix : s.q <:+ expand s.cfg i := hq ▸ List.drop_suffix k _
  exact ⟨hidle, hsuffix.length_le.trans (expand_length_le s.cfg i), i, hsuffix⟩

/-- What has been latched is among what will have been latched. -/
theorem latched_mem_drain {w : Frame} (ops : List MicroOp) {s : State} (h : .latched w ∈ s.trace) :
    .latched w ∈ (s.drain ops).trace := by
  induction ops generalizing s with
  | nil => exact h
  | cons m rest ih =>
    obtain ⟨es, htrace, -⟩ := perform_outputs m s
    exact ih (htrace ▸ List.mem_append_left es h)

theorem display_isSome_of_frameOneHot (c : Config) {w : Frame} (h : frameOneHot (digitSelectOf w) = true) :
    (display c w).isSome = true := by
  have hfind : (positions.find? fun p => digitSelectOf w == dsel p).isSome = true := by
    simpa [frameOneHot] using h
  obtain ⟨p, hp⟩ := Option.isSome_iff_exists.mp hfind
  simp [display, hp]

/-- Settles O50: OUT holds a latched frame, and every latched frame selects one position, which is what the display needs. -/
theorem latchedOutIsDisplayable : Obligations.LatchedOutIsDisplayable := by
  intro s w ⟨hframes, hlatched⟩ hw
  have hout : frameOneHot (digitSelectOf s.out) = true :=
    hframes s.out (latched_mem_drain s.q (s := { s with q := [] }) (hlatched w hw))
  exact ⟨(frameOneHot_iff_mem _).mp hout, display_isSome_of_frameOneHot s.cfg hout⟩

/-- Settles O51: at reset Q and the trace are empty and the lines are at rest. -/
theorem invariantsAtReset : Obligations.InvariantsAtReset := by
  refine ⟨nofun, ⟨⟨.clkrst, rfl, 0, rfl⟩, rfl, rfl⟩, ⟨?_, ?_⟩, List.not_mem_nil⟩
  · rw [finish_of_idle rfl]
    exact fun w hw => absurd hw List.not_mem_nil
  · exact fun w hw => absurd hw List.not_mem_nil

end Sys2Proof.Machine

/-! The command port and acceptance (30_encoding R49, 60_exceptions R108 to R115), the sequencer's turn (40 R70) and RST
(70_reset_and_hazards R127): what one step or one instruction does in each state. -/

namespace Sys2Proof.Machine

/-! ### Steps and the instructions they run -/

theorem exec_under_reset (i : Instr) {s : State} (hr : s.rst = true) : exec i s = .next s := by
  have hoffer (f : State → State) : offerCommand i f s = .next s := by simp [offerCommand, hr]
  cases i with
  | shiftout b => exact hoffer _
  | writeframe x d => exact hoffer _
  | render n sd dpf => exact hoffer _
  | clkrst => exact hoffer _
  | rdclk => exact hoffer _
  | tick => exact if_pos hr

theorem exec_busy {i : Instr} {s : State} (hi : i ≠ .tick) (hr : s.rst = false) (hbusy : s.busy = true) :
    exec i s = .refused .idle := by
  have hoffer (f : State → State) : offerCommand i f s = .refused .idle := by simp [offerCommand, hr, hbusy]
  cases i with
  | shiftout b => exact hoffer _
  | writeframe x d => exact hoffer _
  | render n sd dpf => exact hoffer _
  | clkrst => exact hoffer _
  | rdclk => exact hoffer _
  | tick => exact absurd rfl hi

/-- The checks of RST and BUSY on the port are those that the instruction makes again. -/
theorem presentCommand_of_decode {w : CommandWord} {i : Instr} (s : State) (hdec : decodeCommand w = .ok i) :
    presentCommand w s = exec i s := by
  cases hr : s.rst with
  | true => simp [presentCommand, hr, exec_under_reset i hr]
  | false =>
    cases hbusy : s.busy with
    | true =>
      have htick : i ≠ .tick := fun h => decodeCommand_ne_tick w (h ▸ hdec)
      rw [presentCommand_busy w hr hbusy, exec_busy htick hr hbusy]
    | false => simp [presentCommand, hr, hbusy, hdec]

/-- Settles O8: the port decodes the word and runs it; the tick line always decodes. -/
theorem stepRunsDecodedInstruction : Obligations.StepRunsDecodedInstruction := by
  refine ⟨fun s w rest i hi hdec => ?_, fun s rest hi => ?_⟩
  · rw [step, hi]
    exact presentCommand_of_decode _ ((decode_command_iff w i).mp hdec)
  · rw [step, hi]
    rfl

/-- Settles O9: a well-formed command passes its operand checks, and the tick has no condition but RST. -/
theorem wellFormedIsAccepted : Obligations.WellFormedIsAccepted :=
  ⟨fun _ _ hwf hready => exec_accepts_of_wellFormed hready hwf,
    fun s hr => ⟨s.tickClock, exec_tick_out_of_reset hr, s.tickClock_q⟩⟩

/-- Settles O13: the turn is the sequencer's step, given to it by the input or by the empty list. -/
theorem sequencerPerformsHead : Obligations.SequencerPerformsHead := by
  refine fun s m rest hr hq => ⟨fun hi => ?_, fun l hi => ?_⟩
  · rw [step_no_inputs hi, State.sequencerStep_cons hr hq]
  · rw [step, hi]
    exact congrArg Host.Outcome.next (State.sequencerStep_cons (s := { s with inputs := l }) hr hq)

/-! ### Acceptance of the queued commands -/

/-- Settles O14: the expansion, its eight bits written out. -/
theorem shiftoutAccepted : Obligations.ShiftoutAccepted := fun b _ hready => exec_shiftout_accepts b hready

/-- Settles O16: the expansion as R71 writes it. -/
theorem writeframeAccepted : Obligations.WriteframeAccepted := by
  intro x d s hready hd
  rw [exec_writeframe_accepts hready ((frameOneHot_iff_mem d).mpr hd), frameSeq_eq, List.append_assoc [MicroOp.lat false]]
  rfl

/-- Settles O23: the four positions of the expansion, with the patterns of R84. -/
theorem renderAccepted : Obligations.RenderAccepted := by
  intro n sd dpf s hready hdp
  have hdomain : dpInDomain dpf = true := List.contains_iff_mem.mpr hdp
  refine ⟨pattern s.cfg n sd dpf, pattern_eq s.cfg n sd dpf, ?_⟩
  rw [exec_render_accepts hready hdomain, renderSeq_eq, positions_eq]
  simp only [List.flatMap_cons, List.flatMap_nil, List.append_nil, ← List.append_assoc]
  rfl

/-- Settles O34: as `run_commandAndTick` says. -/
theorem coincidenceIsASerialOrder : Obligations.CoincidenceIsASerialOrder := run_commandAndTick

/-- Settles O38: RMMSS widened to a number is the packed value, whose digits are those of minutes and of seconds. -/
theorem showClockShowsMinutesSeconds : Obligations.ShowClockShowsMinutesSeconds := by
  intro s hready
  obtain ⟨r, hexec, -, -, hmmss⟩ := rdclkPresentsClock s hready
  obtain ⟨-, hpacked⟩ := digitsReconstruct
  have hnumber : ((rmmssOf r).setWidth 16).toNat = s.min.val * 100 + s.sec.val := by
    rw [BitVec.toNat_setWidth_of_le (by decide)]
    exact hmmss
  obtain ⟨h0, h1, h2, h3, -⟩ := hpacked s.min s.sec _ hnumber
  exact ⟨r, _, hexec, rfl, h0, h1, h2, h3⟩

/-! ### RST (R127, R128) -/

/-- Settles O43: each field as the model gives it. -/
theorem resetValues : Obligations.ResetValues := ⟨rfl, rfl, rfl, rfl, rfl, rfl, rfl, rfl⟩

/-- Settles O44: field by field, with the edge of LATCH deciding what is latched. -/
theorem assertedResetLevels : Obligations.AssertedResetLevels := by
  intro s rest hi
  refine ⟨({ s with inputs := rest } : State).assertReset, by rw [step, hi]; rfl, ?_⟩
  refine ⟨State.assertReset_sec _, State.assertReset_min _, State.assertReset_latch _, State.assertReset_sclk _,
    State.assertReset_sdata _, State.assertReset_q _, State.assertReset_sr _, State.assertReset_rst _, ?notReady,
    State.assertReset_cfg _, State.assertReset_inputs _, State.assertReset_responses _, fun hhigh => ?high, fun hlow => ?low⟩
  case notReady => simp [State.cmdReady]
  case high => simp [hhigh]
  case low => simp [hlow]

/-- Settles O45: RST is the first thing that each of the three ports looks at. -/
theorem nothingMovesUnderReset : Obligations.NothingMovesUnderReset := by
  intro s rest x hr hi hx
  rw [step, hi]
  obtain rfl | rfl | ⟨w, rfl⟩ := hx
  · exact exec_under_reset .tick (s := { s with inputs := rest }) hr
  · exact congrArg Host.Outcome.next (State.sequencerStep_reset (s := { s with inputs := rest }) hr)
  · exact if_pos hr

end Sys2Proof.Machine

/-! Frames over time (40 R75, R76; 41 R84, R87, R88): a frame in progress is invisible, a whole one defines the register, the frames of a
`RENDER` come in turn, and each shows its digit. -/

namespace Sys2Proof.Machine

/-! ### A frame in progress (R76) -/

theorem perform_not_rising {m : MicroOp} (h : m ≠ .lat true) (s : State) : ¬ (s.latch = false ∧ (s.perform m).latch = true) := by
  cases m with
  | dat v => simp [State.perform, State.pinWrite]
  | clk v => simp [perform_clk]
  | lat v =>
    have hv : v = false := by simpa using h
    simp [perform_lat, hv]
  | dwell p => simp [State.perform]

theorem drain_latched_of_no_latch {ops : List MicroOp} (h : .lat true ∉ ops) (s : State) :
    (s.drain ops).trace.filter Event.isLatched = s.trace.filter Event.isLatched := by
  induction ops generalizing s with
  | nil => rfl
  | cons m rest ih =>
    obtain ⟨hm, hrest⟩ := List.ne_and_not_mem_of_not_mem_cons h
    obtain ⟨-, htrace⟩ := perform_latchRule m s
    rw [State.drain_cons, ih hrest, htrace, if_neg (perform_not_rising hm.symm s), List.append_nil]

/-- Settles O18: none of the first 49 entries latches, and at least one of the 50 is left in Q. -/
theorem partialFrameInvisible : Obligations.PartialFrameInvisible := by
  intro x d s sched hready _ hd hsched hpart
  obtain ⟨(t : State), hrun, hpins, -⟩ :=
    run_command_ticksAndTurns hready (exec_writeframe_accepts (x := x) (s := { s with inputs := sched }) hready hd) hsched
  have hnone := latch_not_mem_frameSeq_take x d hpart
  refine ⟨t, hrun, ?out, ?busy, fun w hw => ?latched⟩
  case out => exact (congrArg State.out hpins).trans (drain_out_of_no_latch hnone _)
  case busy =>
    have hq : t.q = (frameSeq x d).drop (turns sched) := (congrArg State.q hpins).trans (State.drain_q _ _)
    rw [busy_iff_q_length_pos, hq, List.length_drop, frameSeq_length]
    omega
  case latched =>
    have hevents : t.pinTrace.filter Event.isLatched = s.pinTrace.filter Event.isLatched :=
      (congrArg (fun u : State => u.trace.filter Event.isLatched) hpins).trans (drain_latched_of_no_latch hnone _)
    rw [pinTrace_filter_isLatched, pinTrace_filter_isLatched] at hevents
    rwa [← latched_mem_filter, hevents, latched_mem_filter] at hw

/-! ### A whole frame (R29, R75) -/

/-- Accepting `WRITEFRAME` and performing all of it: SR and OUT are overwritten whole. -/
theorem run_writeframe (x d : Byte) {s : State} (hready : s.cmdReady = true) (hrest : s.restLevels)
    (hd : frameOneHot d = true) :
    Host.Core.run Sys2Proof.core 51 { s with inputs := inputsOf (encode (.writeframe x d)) } = .next
      { s with
        inputs := []
        q := []
        latch := true
        sdata := d.getLsbD 0
        sr := frameWord x d
        out := frameWord x d
        trace := s.trace ++ frameEvents x d } := by
  obtain ⟨hsclk, -⟩ := hrest
  obtain ⟨-, hr⟩ := s.cmdReady_iff.mp hready
  have hstep : step { s with inputs := inputsOf (encode (.writeframe x d)) } =
      .next (({ s with inputs := [] } : State).load (frameSeq x d)) :=
    (step_inputsOf_encode (.writeframe x d) [] hready).trans (exec_writeframe_accepts hready hd)
  have hdrain := run_drain (k := 50) (s := ({ s with inputs := [] } : State).load (frameSeq x d)) rfl hr (Nat.le_refl 50)
  rw [run_succ hstep, hdrain]
  exact congrArg Host.Outcome.next (drain_frameSeq x d (s := { s with inputs := [], q := [] }) hsclk)

/-- Settles O19: the state after the frame does not mention what SR and OUT held. -/
theorem firstFrameDefinesRegister : Obligations.FirstFrameDefinesRegister := fun x d s sr out hready hrest hd =>
  ⟨_, run_writeframe x d hready hrest hd, run_writeframe x d (s := { s with sr := sr, out := out }) hready hrest hd⟩

/-! ### The frames of a `RENDER` in turn (R87) -/

/-- OUT after the first k entries of one position: its frame is latched by the fiftieth. -/
theorem drain_take_frameSeq_dwell_out (x y : Byte) (p : Fin ndigits) {k : Nat} (hk : k ≤ 50) {s : State}
    (hrest : s.restLevels) :
    (s.drain ((frameSeq x y ++ [MicroOp.dwell p]).take k)).out = if k = 50 then frameWord x y else s.out := by
  have hlen : k ≤ (frameSeq x y).length := hk
  obtain ⟨hsclk, -⟩ := hrest
  rw [List.take_append_of_le_length hlen]
  split_ifs with hwhole
  · rw [hwhole, ← frameSeq_length x y, List.take_length, drain_frameSeq x y hsclk]
  · exact drain_out_of_no_latch (latch_not_mem_frameSeq_take x y (by omega)) s

/-- OUT after the first k entries of some positions, 51 for each: the last frame whose fiftieth entry has been performed. -/
theorem drain_take_frames_out (pat : Fin ndigits → Byte) (ps : List (Fin ndigits)) (k : Nat) {s : State}
    (hrest : s.restLevels) :
    (s.drain ((ps.flatMap fun p => frameSeq (pat p) (dsel p) ++ [.dwell p]).take k)).out =
      (ps.take ((k + 1) / 51)).foldl (fun _ p => frameWord (pat p) (dsel p)) s.out := by
  induction ps generalizing s k with
  | nil => rw [List.flatMap_nil, List.take_nil, List.take_nil]; rfl
  | cons p ps ih =>
    have hlen : (frameSeq (pat p) (dsel p) ++ [MicroOp.dwell p]).length = 51 := rfl
    rw [List.flatMap_cons]
    by_cases hk : k ≤ 50
    · rw [List.take_append_of_le_length (by omega), drain_take_frameSeq_dwell_out _ _ p hk hrest]
      split_ifs with hwhole
      · rw [hwhole]; rfl
      · rw [show (k + 1) / 51 = 0 by omega]; rfl
    · obtain ⟨j, rfl⟩ : ∃ j, k = 51 + j := ⟨k - 51, by omega⟩
      rw [← hlen, List.take_length_add_append, State.drain_append, drain_frameSeq_dwell _ _ p hrest, ih j ?rest, hlen,
        show (51 + j + 1) / 51 = (j + 1) / 51 + 1 by omega]
      · rfl
      case rest => exact hrest

/-- Settles O25: the number of frames latched by then is (turns + 1) / 51. -/
theorem renderFramesInTurn : Obligations.RenderFramesInTurn := by
  intro n sd dpf s sched hready hrest hdp hsched hturns
  obtain ⟨t, hrun, hpins, -⟩ :=
    run_command_ticksAndTurns hready (exec_render_accepts (n := n) (sd := sd) (s := { s with inputs := sched }) hready hdp) hsched
  have hout : t.out = (positions.take ((turns sched + 1) / 51)).foldl (fun _ p => renderFrame s.cfg n sd dpf p) s.out := by
    rw [expand, renderSeq_eq] at hpins
    exact (congrArg State.out hpins).trans (drain_take_frames_out _ positions _ hrest)
  refine ⟨t, hrun, ?_⟩
  rw [hout]
  split_ifs with h0 h1 h2 h3
  · rw [show (turns sched + 1) / 51 = 0 by omega]; rfl
  · rw [show (turns sched + 1) / 51 = 1 by omega]; rfl
  · rw [show (turns sched + 1) / 51 = 2 by omega]; rfl
  · rw [show (turns sched + 1) / 51 = 3 by omega]; rfl
  · rw [show (turns sched + 1) / 51 = 4 by omega]; rfl

/-! ### What a frame shows (R88) -/

theorem find_position_dsel (p : Fin ndigits) : positions.find? (fun q => dsel p == dsel q) = some p := by
  revert p; decide

/-- With DP_MASK driving no segment, the point lights no segment. -/
theorem litSegments_litPoint {c : Config} (hc : ConfigWf c) (seg : Byte) :
    litSegments c (litPoint c seg) = litSegments c seg := by
  obtain ⟨-, hfree, -⟩ := hc
  refine List.filter_congr fun x hx => ?_
  have hbit := hfree x hx
  rw [litPoint_eq, BitVec.getLsbD_and, BitVec.getLsbD_not, hbit]
  simp

/-- The glyph does not depend on the point. -/
theorem darkPoint_litPoint (c : Config) (seg : Byte) : darkPoint c (litPoint c seg) = darkPoint c seg := by
  apply BitVec.eq_of_getLsbD_eq
  intro i hi
  rw [darkPoint_eq, litPoint_eq, darkPoint_eq, BitVec.getLsbD_or, BitVec.getLsbD_or, BitVec.getLsbD_and, BitVec.getLsbD_not]
  cases c.dpMask.getLsbD i <;> simp [hi]

theorem pattern_cases (c : Config) (n : Number) (sd : Bool) (dpf : BitVec 3) (p : Fin ndigits) :
    pattern c n sd dpf p = litPoint c (lutRead c (digit n p)) ∨ pattern c n sd dpf p = lutRead c (digit n p) := by
  unfold pattern
  split_ifs
  · exact .inl rfl
  · exact .inr rfl

theorem litSegments_pattern {c : Config} (hc : ConfigWf c) (n : Number) (sd : Bool) (dpf : BitVec 3) (p : Fin ndigits) :
    litSegments c (pattern c n sd dpf p) = litSegments c (lutRead c (digit n p)) := by
  obtain h | h := pattern_cases c n sd dpf p
  · rw [h, litSegments_litPoint hc]
  · rw [h]

theorem lutRead_of_glyph {c : Config} {seg : Byte} {d : Fin lutSize} (h : glyph c seg = some d) :
    lutRead c d = darkPoint c seg :=
  beq_iff_eq.mp (List.find?_some (p := fun e => lutRead c e == darkPoint c seg) h)

/-- The entries differ and are dark, so looking one up finds its own digit. -/
theorem glyph_pattern {c : Config} (hc : ConfigWf c) (n : Number) (sd : Bool) (dpf : BitVec 3) (p : Fin ndigits) :
    glyph c (pattern c n sd dpf p) = some (digit n p) := by
  obtain ⟨-, -, -, hdark, -, hinj⟩ := hc
  have hmem (d : Fin lutSize) : d ∈ digits := List.mem_finRange d
  have hentry : darkPoint c (pattern c n sd dpf p) = lutRead c (digit n p) := by
    obtain h | h := pattern_cases c n sd dpf p
    · rw [h, darkPoint_litPoint, hdark _ (hmem _)]
    · rw [h, hdark _ (hmem _)]
  have hfound : (glyph c (pattern c n sd dpf p)).isSome = true :=
    List.find?_isSome.mpr ⟨digit n p, hmem _, beq_iff_eq.mpr hentry.symm⟩
  obtain ⟨d, hd⟩ := Option.isSome_iff_exists.mp hfound
  have heq : lutRead c d = lutRead c (digit n p) := (lutRead_of_glyph hd).trans hentry
  rw [hd, hinj d (hmem d) _ (hmem _) heq]

/-- Settles O28: the mask finds the position, the entry its digit, and the point touches neither. -/
theorem framesShowTheirDigits : Obligations.FramesShowTheirDigits := by
  intro c n sd dpf p hc
  have hdisplay : display c (renderFrame c n sd dpf p) = some
      { position := p, lit := litSegments c (pattern c n sd dpf p), point := pointLit c (pattern c n sd dpf p),
        numeral := glyph c (pattern c n sd dpf p) } := by
    simp only [display, renderFrame, digitSelectOf_frameWord, segmentsOf_frameWord, find_position_dsel]
  refine ⟨_, hdisplay, rfl, glyph_pattern hc n sd dpf p, ?shape, pointLit_pattern_iff hc n sd dpf p⟩
  case shape =>
    rw [litSegments_pattern hc]
    obtain ⟨-, -, -, -, hshapes, -⟩ := hc
    exact hshapes _ (List.mem_finRange _)

end Sys2Proof.Machine

/-! The agents together (20_memory R44, R45; 42 R98; 60 R118) and over time: how the clock moves, a tick moved across a step of the
sequencer or an acceptance, any schedule of ticks and turns, and the sequencer held as a counter (10_state R22). -/

namespace Sys2Proof.Machine

/-! ### The clock (R16, R17, R122) -/

/-- The Clock State stays, advances by one tick or goes to 0:00, and MIN moves on only with SEC going from 59 to 0. -/
def ClockRule (s t : State) : Prop :=
  ((t.sec = s.sec ∧ t.min = s.min) ∨ t.clockTotal = (s.clockTotal + 1) % 6000 ∨ (t.sec = 0 ∧ t.min = 0)) ∧
  (t.min ≠ s.min → t.min ≠ 0 → s.sec.val = 59 ∧ t.sec = 0 ∧ t.min.val = s.min.val + 1)

theorem clockRule_of_same {s t : State} (hsec : t.sec = s.sec) (hmin : t.min = s.min) : ClockRule s t :=
  ⟨.inl ⟨hsec, hmin⟩, fun h => absurd hmin h⟩

theorem clockRule_of_zero {s t : State} (hsec : t.sec = 0) (hmin : t.min = 0) : ClockRule s t :=
  ⟨.inr (.inr ⟨hsec, hmin⟩), fun _ h => absurd hmin h⟩

theorem nextMinute_val_of_ne_zero {m : Fin minMod} (h : nextMinute m ≠ 0) : (nextMinute m).val = m.val + 1 := by
  have hm : m.val < 100 := m.isLt
  have hval : (nextMinute m).val = (m.val + 1) % 100 := rfl
  have hne : (nextMinute m).val ≠ 0 := fun h0 => h (Fin.ext h0)
  omega

theorem tickClock_clockRule (s : State) : ClockRule s s.tickClock := by
  refine ⟨.inr (.inl s.tickClock_total), fun hmoved hne => ?_⟩
  by_cases hcarry : s.sec.val = 59
  · rw [State.tickClock_carry hcarry] at hne ⊢
    exact ⟨hcarry, rfl, nextMinute_val_of_ne_zero hne⟩
  · obtain ⟨c, -, htick⟩ := State.tickClock_no_carry hcarry
    exact absurd (by rw [htick]; rfl) hmoved

@[simp] theorem sequencerStep_sec (s : State) : s.sequencerStep.sec = s.sec := by
  obtain h | ⟨m, rest, -, -, h⟩ := s.sequencerStep_cases
  · rw [h]
  · rw [h, State.perform_sec]

@[simp] theorem sequencerStep_min (s : State) : s.sequencerStep.min = s.min := by
  obtain h | ⟨m, rest, -, -, h⟩ := s.sequencerStep_cases
  · rw [h]
  · rw [h, State.perform_min]

theorem exec_clockRule {i : Instr} {s t : State} (h : exec i s = .next t) : ClockRule s t := by
  obtain ⟨-, rfl⟩ | ⟨-, -, rfl | rfl | rfl⟩ | ⟨-, rfl⟩ := exec_cases h
  · exact clockRule_of_same rfl rfl
  · exact clockRule_of_same rfl rfl
  · exact clockRule_of_zero rfl rfl
  · exact clockRule_of_same rfl rfl
  · exact tickClock_clockRule s

theorem Moves.clockRule {r : Prop} {s t : State} (h : Moves r s t) : ClockRule s t := by
  cases h with
  | still => exact clockRule_of_same rfl rfl
  | sequencer => exact clockRule_of_same (sequencerStep_sec s) (sequencerStep_min s)
  | exec h => exact exec_clockRule h
  | assertReset => exact clockRule_of_zero s.assertReset_sec s.assertReset_min
  | releaseReset => exact clockRule_of_same rfl rfl

/-- Settles O37: only the tick, `CLKRST` and RST write the clock. -/
theorem clockMovesOnlySo : Obligations.ClockMovesOnlySo := by
  intro s t h
  obtain ⟨l, c, -, hmove⟩ := step_moves h
  exact hmove.clockRule

/-! ### A tick moved across another agent (R45) -/

theorem tickClock_clock_congr {s t : State} (hsec : s.sec = t.sec) (hmin : s.min = t.min) :
    s.tickClock.sec = t.tickClock.sec ∧ s.tickClock.min = t.tickClock.min := by
  unfold State.tickClock
  simp only [hsec, hmin]
  split_ifs
  · exact ⟨rfl, rfl⟩
  · exact ⟨rfl, rfl⟩

theorem tickClock_clockTrace (s : State) :
    s.tickClock.clockTrace = s.clockTrace ++ [.clockWrite s.tickClock.min s.tickClock.sec] := by
  simp [State.clockTrace, Event.onPins]

theorem perform_clockTrace (m : MicroOp) (s : State) : (s.perform m).clockTrace = s.clockTrace := by
  cases m with
  | dat v => simp [State.clockTrace, State.perform, State.pinWrite, Event.onPins]
  | clk v => simp [State.clockTrace, perform_clk, Event.onPins]
  | lat v =>
    by_cases hrise : s.latch = false ∧ v = true
    · simp [State.clockTrace, perform_lat, Event.onPins, hrise]
    · simp [State.clockTrace, perform_lat, Event.onPins, hrise]
  | dwell p => simp [State.clockTrace, State.perform, Event.onPins]

theorem sequencerStep_clockTrace (s : State) : s.sequencerStep.clockTrace = s.clockTrace := by
  obtain h | ⟨m, rest, -, -, h⟩ := s.sequencerStep_cases
  · rw [h]
  · rw [h]
    exact perform_clockTrace m { s with q := rest }

/-- A move that neither reads nor writes the clock and its events, and leaves the inputs. -/
structure ClockFree (f : State → State) : Prop where
  sec (s : State) : (f s).sec = s.sec
  min (s : State) : (f s).min = s.min
  inputs (s : State) : (f s).inputs = s.inputs
  clockTrace (s : State) : (f s).clockTrace = s.clockTrace
  withoutClock {s t : State} (hr : s.rst = false) (h : t.withoutClock = s.withoutClock) :
    (f t).withoutClock = (f s).withoutClock

theorem clockFree_sequencerStep : ClockFree State.sequencerStep where
  sec := sequencerStep_sec
  min := sequencerStep_min
  inputs := sequencerStep_inputs
  clockTrace := sequencerStep_clockTrace
  withoutClock {s t} hr h := by
    have hrt : t.rst = false := (congrArg State.rst h).trans hr
    rw [sequencerStep_withoutClock hrt, sequencerStep_withoutClock hr, h]

theorem clockFree_load (ops : List MicroOp) : ClockFree (State.load ops) where
  sec _ := rfl
  min _ := rfl
  inputs _ := rfl
  clockTrace _ := rfl
  withoutClock _ h := congrArg (State.load ops) h

/-- What R45 asks of the two orders: one state but for where the clock's event stands in the trace. -/
def SameButTraceOrder (u t : State) : Prop :=
  u.pinTrace = t.pinTrace ∧ u.clockTrace = t.clockTrace ∧ { u with trace := t.trace } = t

theorem sameButTraceOrder_of_views {u t : State} (hview : u.withoutClock = t.withoutClock) (hsec : u.sec = t.sec)
    (hmin : u.min = t.min) (hinputs : u.inputs = t.inputs) (hclock : u.clockTrace = t.clockTrace) :
    SameButTraceOrder u t := by
  obtain ⟨-, -, hlatch, hsclk, hsdata, hq, hsr, hout, hrst, hcfg, -, hchoices, htrace, hresp⟩ := State.ext_iff.mp hview
  exact ⟨htrace, hclock,
    State.ext hsec hmin hlatch hsclk hsdata hq hsr hout hrst hcfg hinputs hchoices rfl hresp⟩

/-- The tick before a clock-free move, and after it. -/
theorem ClockFree.commutes_tick {f : State → State} (hf : ClockFree f) {s : State} (hr : s.rst = false) (l rest : List Input) :
    SameButTraceOrder ({ f { s with inputs := l } with inputs := rest } : State).tickClock
      (f ({ s with inputs := rest } : State).tickClock) := by
  have hlater : ({ f { s with inputs := l } with inputs := rest } : State).withoutClock =
      (f { s with inputs := rest }).withoutClock :=
    hf.withoutClock (s := { s with inputs := rest }) (t := { s with inputs := l }) hr rfl
  have hsooner : (f ({ s with inputs := rest } : State).tickClock).withoutClock = (f { s with inputs := rest }).withoutClock :=
    hf.withoutClock (s := { s with inputs := rest }) hr (tickClock_withoutClock _)
  obtain ⟨hsec, hmin⟩ := tickClock_clock_congr (s := { f { s with inputs := l } with inputs := rest })
    (t := { s with inputs := rest }) (hf.sec _) (hf.min _)
  refine sameButTraceOrder_of_views ?_ ?_ ?_ ?_ ?_
  · rw [tickClock_withoutClock, hlater, hsooner]
  · rw [hsec, hf.sec]
  · rw [hmin, hf.min]
  · rw [State.tickClock_inputs, hf.inputs, State.tickClock_inputs]
  · rw [tickClock_clockTrace, hf.clockTrace, tickClock_clockTrace, hsec, hmin]
    exact congrArg (· ++ _) (hf.clockTrace _)

theorem run_one (s : State) : Host.Core.run Sys2Proof.core 1 s = step s := by
  have hcore : Sys2Proof.core.step s = step s := rfl
  simp only [Host.Core.run, hcore]
  cases step s <;> rfl

/-- The three queued commands are all offered with the loading of their expansion as effect. -/
theorem exec_eq_offer_load {i : Instr} (hclkrst : i ≠ .clkrst) (hrdclk : i ≠ .rdclk) (htick : i ≠ .tick) (s : State) :
    exec i s = offerCommand i (State.load (expand s.cfg i)) s := by
  cases i with
  | shiftout b => rfl
  | writeframe x d => rfl
  | render n sd dpf => rfl
  | clkrst => exact absurd rfl hclkrst
  | rdclk => exact absurd rfl hrdclk
  | tick => exact absurd rfl htick

/-- Two inputs under RST are both used up. -/
theorem run_two_under_reset {s : State} {x y : Input} (rest : List Input) (hr : s.rst = true)
    (hx : x = .tick ∨ x = .sequencer ∨ ∃ w, x = .command w) (hy : y = .tick ∨ y = .sequencer ∨ ∃ w, y = .command w) :
    Host.Core.run Sys2Proof.core 2 { s with inputs := x :: y :: rest } = .next { s with inputs := rest } := by
  have hfirst := nothingMovesUnderReset { s with inputs := x :: y :: rest } (y :: rest) x hr rfl hx
  have hsecond := nothingMovesUnderReset { s with inputs := y :: rest } rest y hr rfl hy
  exact (run_succ hfirst).trans (run_succ hsecond)

/-- The tick first, out of reset: what is left is one step from the ticked state. -/
theorem run_tick_then {s : State} (x : Input) (rest : List Input) (hr : s.rst = false) :
    Host.Core.run Sys2Proof.core 2 { s with inputs := .tick :: x :: rest } =
      runInput x ({ s with inputs := rest } : State).tickClock := by
  have htick : step { s with inputs := .tick :: x :: rest } = .next ({ s with inputs := x :: rest } : State).tickClock :=
    step_tick rfl hr
  rw [run_succ htick, run_one, step, State.tickClock_inputs]
  exact congrArg (runInput x) (tickClock_setInputs rest { s with inputs := x :: rest })

theorem run_sequencer_tick {s : State} (rest : List Input) (hr : s.rst = false) :
    Host.Core.run Sys2Proof.core 2 { s with inputs := .sequencer :: .tick :: rest } =
      .next ({ ({ s with inputs := .tick :: rest } : State).sequencerStep with inputs := rest } : State).tickClock := by
  have hturn : step { s with inputs := .sequencer :: .tick :: rest } =
      .next ({ s with inputs := .tick :: rest } : State).sequencerStep := rfl
  have htick := step_tick (s := ({ s with inputs := .tick :: rest } : State).sequencerStep) (sequencerStep_inputs _)
    ((sequencerStep_rst _).trans hr)
  exact (run_succ hturn).trans (run_succ htick)

/-- A queued command taken after a tick was ready before it, and is accepted as well before a tick that comes later. -/
theorem queued_commutes_tick {w : CommandWord} {i : Instr} {s t : State} (rest : List Input) (hr : s.rst = false)
    (hdec : decode (.command w) = .ok i) (hclkrst : i ≠ .clkrst) (hrdclk : i ≠ .rdclk)
    (h : presentCommand w ({ s with inputs := rest } : State).tickClock = .next t) :
    ∃ u : State, Host.Core.run Sys2Proof.core 2 { s with inputs := .command w :: .tick :: rest } = .next u ∧
      SameButTraceOrder u t := by
  have hword : decodeCommand w = .ok i := (decode_command_iff w i).mp hdec
  have htick : i ≠ .tick := fun hi => decodeCommand_ne_tick w (hi ▸ hword)
  rw [presentCommand_of_decode _ hword, exec_eq_offer_load hclkrst hrdclk htick] at h
  obtain ⟨hrst, -⟩ | ⟨hticked, hwf, rfl⟩ := offerCommand_next h
  · rw [State.tickClock_rst] at hrst
    exact absurd (hr.symm.trans hrst) (by decide)
  · have hready : s.cmdReady = true := (tickClock_cmdReady { s with inputs := rest }).symm.trans hticked
    have haccept := (exec_eq_offer_load hclkrst hrdclk htick { s with inputs := .tick :: rest }).trans
      (offerCommand_accepts _ hready hwf)
    refine ⟨_, run_command_tick hready hdec haccept rfl hr, ?_⟩
    rw [State.tickClock_cfg]
    exact (clockFree_load (expand s.cfg i)).commutes_tick hr _ rest

/-- Settles O39: out of reset the sequencer's turn and the loading of an expansion are clock-free; under RST nothing moves. -/
theorem tickCommutes : Obligations.TickCommutes := by
  intro s t x rest hx h
  have hport : x = .tick ∨ x = .sequencer ∨ ∃ w, x = .command w := by
    obtain rfl | ⟨w, i, rfl, -⟩ := hx
    · exact .inr (.inl rfl)
    · exact .inr (.inr ⟨w, rfl⟩)
  obtain hr | hr := Bool.eq_false_or_eq_true s.rst
  · rw [run_two_under_reset rest hr (.inl rfl) hport] at h
    injection h with h
    subst h
    exact ⟨_, run_two_under_reset rest hr hport (.inl rfl), rfl, rfl, rfl⟩
  · rw [run_tick_then x rest hr] at h
    obtain rfl | ⟨w, i, rfl, hdec, hclkrst, hrdclk⟩ := hx
    · injection h with h
      subst h
      exact ⟨_, run_sequencer_tick rest hr, clockFree_sequencerStep.commutes_tick hr _ rest⟩
    · exact queued_commutes_tick rest hr hdec hclkrst hrdclk h

/-! ### Any schedule of ticks and turns (R44, R98) -/

theorem sequencerStep_iterate_withoutClock (k : Nat) {s : State} (hr : s.rst = false) :
    (State.sequencerStep^[k] s).withoutClock = State.sequencerStep^[k] s.withoutClock := by
  induction k generalizing s with
  | zero => rfl
  | succ k ih =>
    rw [Function.iterate_succ_apply, Function.iterate_succ_apply, ih ((sequencerStep_rst s).trans hr),
      sequencerStep_withoutClock hr]

/-- With no input left, every step is a turn. -/
theorem run_turns (k : Nat) {s : State} (hi : s.inputs = []) :
    Host.Core.run Sys2Proof.core k s = .next (State.sequencerStep^[k] s) := by
  induction k generalizing s with
  | zero => rfl
  | succ k ih =>
    rw [run_succ (step_no_inputs hi), ih ((sequencerStep_inputs s).trans hi)]
    rfl

/-- Each firing of a schedule writes the clock once, and a turn never does. -/
theorem run_ticksAndTurns_clockTrace {sched : List Input} {s t : State} (hi : s.inputs = sched) (hr : s.rst = false)
    (hsched : TicksAndTurns sched) (hrun : Host.Core.run Sys2Proof.core sched.length s = .next t) :
    t.clockTrace.length = s.clockTrace.length + firings sched := by
  induction sched generalizing s with
  | nil =>
    injection hrun with hrun
    rw [← hrun]
    rfl
  | cons x rest ih =>
    obtain ⟨hx, hrest⟩ := List.forall_mem_cons.mp hsched
    obtain rfl | rfl := hx
    · rw [List.length_cons, run_succ (step_tick hi hr)] at hrun
      have hlength := ih (s := ({ s with inputs := rest } : State).tickClock) (State.tickClock_inputs _)
        ((State.tickClock_rst _).trans hr) hrest hrun
      rw [hlength, tickClock_clockTrace, firings, firings, List.count_cons_self, List.length_append, List.length_singleton,
        Nat.add_right_comm, Nat.add_assoc]
      rfl
    · have hturn : step s = .next ({ s with inputs := rest } : State).sequencerStep := by rw [step, hi]; rfl
      rw [List.length_cons, run_succ hturn] at hrun
      have hlength := ih (s := ({ s with inputs := rest } : State).sequencerStep) (sequencerStep_inputs _)
        ((sequencerStep_rst _).trans hr) hrest hrun
      rw [hlength, sequencerStep_clockTrace, firings, firings, List.count_cons_of_ne (by decide)]
      rfl

/-- Settles O40: with the clock left out, the schedule's run and the run of its turns are the same iteration of the sequencer. -/
theorem ticksDoNotDisturbTheSequencer : Obligations.TicksDoNotDisturbTheSequencer := by
  intro s sched hr hsched
  obtain ⟨t, hrun, hpins, hclock⟩ := run_ticksAndTurns (s := { s with inputs := sched }) rfl hr hsched
  have hturns := run_turns (turns sched) (s := { s with inputs := [] }) rfl
  have hsame := hpins.trans (sequencerStep_iterate_withoutClock (turns sched) (s := { s with inputs := [] }) hr).symm
  obtain ⟨-, -, hlatch, hsclk, hsdata, hq, hsr, hout, -, -, -, -, htrace, -⟩ := State.ext_iff.mp hsame
  exact ⟨t, _, hrun, hturns, hlatch, hsclk, hsdata, hq, hsr, hout, htrace, hclock,
    run_ticksAndTurns_clockTrace (s := { s with inputs := sched }) rfl hr hsched hrun⟩

/-! ### The counter form (R22) -/

/-- Latching n mod 10000 for n loses nothing of the expansion. -/
theorem expand_latchOperands (c : Config) (i : Instr) : expand c (latchOperands i) = expand c i := by
  cases i with
  | render n sd dpf =>
    obtain ⟨-, hseq⟩ := renderTruncates c (keptNumber n) n sd dpf (by rw [keptNumber_toNat, Nat.mod_mod])
    exact hseq
  | shiftout b => rfl
  | writeframe x d => rfl
  | clkrst => rfl
  | rdclk => rfl
  | tick => rfl

theorem CounterState.toList_advance {m : CounterState} (hr : m.base.rst = false) :
    m.advance.toList = m.toList.sequencerStep := by
  cases hop : (expand m.base.cfg m.command)[m.useq]? with
  | none =>
    have hidle : m.toList.q = [] := List.drop_eq_nil_of_le (List.getElem?_eq_none_iff.mp hop)
    rw [State.sequencerStep_idle hidle, CounterState.advance, hop]
  | some op =>
    obtain ⟨hlt, hget⟩ := List.getElem?_eq_some_iff.mp hop
    have hq : m.toList.q = op :: (expand m.base.cfg m.command).drop (m.useq + 1) := hget ▸ List.drop_eq_getElem_cons hlt
    rw [State.sequencerStep_cons (s := m.toList) hr hq, CounterState.advance, hop]
    simp only [CounterState.toList, State.perform_setQ, State.perform_cfg]

/-- Settles O42: Q is the expansion from USEQ on. -/
theorem counterFormEquivalent : Obligations.CounterFormEquivalent := by
  refine ⟨fun i s => ?accept, fun m hr => CounterState.toList_advance hr, fun m => ?ended⟩
  case accept =>
    exact congrArg (fun ops => s.load ops) (expand_latchOperands s.cfg i)
  case ended => rw [State.busy_eq_false_iff, CounterState.toList, List.drop_eq_nil_iff]

end Sys2Proof.Machine
